-- ==== Sys2Proof/Word.lean ====
section
/-! DEFINITION. The two word types of the Basic Computer core (00_scope.md R12, R15): 16-bit data words and 12-bit
word addresses. Every value is an unsigned number below two to its width. -/

namespace Sys2Proof

/-- A memory word, and the content of DR, AC, IR and TR (R12). -/
abbrev Word := BitVec 16

/-- A word address, and the content of AR and PC (R12, R201). -/
abbrev Addr := BitVec 12

end Sys2Proof
end

