-- ==== Sys2Proof/Machine/Flags.lean ====
section
/-! DEFINITION. The arithmetic utilities and their flags (40_alu.md R401 to R409): pure functions over naturals and a
width, total, masking every result. -/

namespace Sys2Proof.Machine

/-- `mask(v, bits)` = v mod 2^bits (R401). -/
def mask (v bits : Nat) : BitVec bits := BitVec.ofNat bits v

/-- Z: the masked result is 0 (R406). -/
def flagZ {bits : Nat} (result : BitVec bits) : Bool := result == 0#bits

/-- N: the most significant bit of the masked result, `result[bits-1]` (R406, R15). -/
def flagN {bits : Nat} (result : BitVec bits) : Bool := result.getLsbD (bits - 1)

/-- The `{result, Z, N}` contract of the utilities (R403). -/
structure AluResult (bits : Nat) where
  result : BitVec bits
  z      : Bool
  n      : Bool
  deriving DecidableEq, Repr

/-- A masked result with the flags computed from it (R406). -/
def AluResult.ofResult {bits : Nat} (result : BitVec bits) : AluResult bits :=
  ⟨result, flagZ result, flagN result⟩

/-- `overflow` of `add`: the unsigned carry beyond `bits` of the unwrapped sum (R402), the sole source of E. -/
def aluCarry (bits a b : Nat) : Bool := decide (2 ^ bits ≤ a + b)

/-- `add(a, b, bits)` without its carry, which is `aluCarry` (R402). -/
def aluAdd (bits a b : Nat) : AluResult bits := .ofResult (mask (a + b) bits)

/-- `and(a, b, bits)` (R403). -/
def aluAnd (bits a b : Nat) : AluResult bits := .ofResult (mask (a &&& b) bits)

/-- `complement(a, bits)` (R404). -/
def aluComplement (bits a : Nat) : AluResult bits := .ofResult (~~~ mask a bits)

/-- `increment(a, bits)`: no carry is returned (R405). -/
def aluIncrement (bits a : Nat) : AluResult bits := .ofResult (mask (a + 1) bits)

end Sys2Proof.Machine
end

