-- ==== Sys2Proof/Config.lean ====
section
/-! DEFINITION. The parameters the spec leaves open (00_scope.md R13) and the free values of the micro-operation log.
Each is a constant with no body: a statement that mentions one holds for every value of it. -/

namespace Sys2Proof

/-- The two readings of STEP while `halted` is true (43_control_unit.md R552, 92_eei_decisions.md D6). -/
inductive StepWhenHalted where
  /-- STEP changes nothing. -/
  | ignore
  /-- STEP acts as if `halted` were false, and leaves it true. -/
  | proceed
  deriving DecidableEq, Repr, Inhabited

/-- STEP_WHEN_HALTED (R13, R552, D6). Assumption 3. -/
opaque Config.stepWhenHalted : StepWhenHalted

/-- SPEED_INIT, the value of `speedMs` at creation (R13, R126, D10). Assumption 4. -/
opaque Config.speedInit : Nat

/-- How many names BUS_SOURCES has besides `ar` and `pc` (R13, R501, D14). Assumption 5. -/
opaque Config.otherBusSources : Nat

/-- FREE VALUE: what the n-th acting STEP appends to the log: a string of any contents, or nothing, since it "may"
append one (R560, D9). Assumption 6. -/
opaque Config.freeLogEntry : Nat → Option String

/-- FREE VALUE: the log after a command whose effect on it is "any value" (R126, D9). Assumption 6. -/
opaque Config.freeLog : Nat → List String

end Sys2Proof
end

