-- ==== Sys2Proof/Machine/Types.lean ====
section
/-! DEFINITION. The plain data types behind the state: the control unit's positions (10_state.md R116), the standalone
tools (R122 to R125) and the commands of the block's ports (46_host_commands.md R701, 41_registers.md, 42_bus.md,
20_memory.md R206). -/

namespace Sys2Proof.Machine

/-- The twelve operations of `Execute(op)` (R116). -/
inductive Op where
  | and | add | lda | sta | bun | bsa | isz | cla | cle | cma | inc | hlt
  deriving DecidableEq, Repr

/-- `ctrl`, the control unit's position: exactly these 16 values (R116). Decode is not one of them (R557). -/
inductive Ctrl where
  | idle
  | fetchT0
  | fetchT1
  | fetchT2
  | execute (op : Op)
  deriving DecidableEq, Repr

/-- Memory as its listed words: pairs of a word address and a 16-bit word. The hardware has no bytes (R201, R207), so
the cell is the word. The canonical form is `Memory.wf`; an unlisted address reads 0 (R202). Assumption 7. -/
abbrev Memory := List (Nat × Word)

/-- A program image: a finite map from natural addresses to natural values, as a list of pairs (30_encoding.md R311).
Assumption 11. -/
abbrev Program := List (Nat × Nat)

/-- The `lastOp` tag of a register tool (41_registers.md R452). -/
inductive LastOp where
  | none | load | clear | increment | set | and | or | xor | complement | shiftLeft | shiftRight | selectNext
  deriving DecidableEq, Repr

/-- A register tool of width `w` (R451, R452). The width is the tool's own and never changes. -/
structure RegTool (w : Nat) where
  value  : BitVec w
  lastOp : LastOp
  deriving DecidableEq, Repr

/-- The PC tool's next-load selector (R464). `ret` is the spec's `return`. -/
inductive NextSource where
  | increment | branch | ret | interrupt
  deriving DecidableEq, Repr

/-- A name of BUS_SOURCES: `ar`, `pc`, or one of the names the source does not give, by number (R501). Assumption 5. -/
inductive BusSource where
  | ar
  | pc
  | other (k : Nat)
  deriving DecidableEq, Repr

/-- The standalone bus tool (R501). -/
structure Bus where
  value        : Word
  activeSource : Option BusSource
  conflict     : Bool
  deriving DecidableEq, Repr

/-- All standalone tools (R122 to R124): eleven register tools, the PC tool's selector, the bus and the memory tool. -/
structure Tools where
  ar           : RegTool 12
  pc           : RegTool 12
  pcNextSource : NextSource
  dr           : RegTool 16
  ac           : RegTool 16
  ir           : RegTool 16
  tr           : RegTool 16
  sc           : RegTool 4
  inpr         : RegTool 8
  outr         : RegTool 8
  e            : RegTool 1
  i            : RegTool 1
  bus          : Bus
  mem          : Memory
  deriving DecidableEq, Repr

/-- The names of the register tools (R451). -/
inductive RegName where
  | ar | pc | dr | ac | ir | tr | sc | inpr | outr | e | i
  deriving DecidableEq, Repr

/-- The commands of the register tools (R453 to R464). Which tool has which command is R465. -/
inductive RegCommand where
  | load (v : Nat)
  | clear
  | increment
  | set (v : Nat)
  | and (v : Nat)
  | or (v : Nat)
  | xor (v : Nat)
  | complement
  | shiftLeft
  | shiftRight
  | selectNext (s : NextSource)
  deriving DecidableEq, Repr

/-- The commands of the bus tool (R502 to R505). -/
inductive BusCommand where
  | drive (source : BusSource) (v : Nat)
  | release
  deriving DecidableEq, Repr

/-- The commands of the memory tool (20_memory.md R206). -/
inductive MemCommand where
  | read (addr : Nat)
  | write (addr value : Nat)
  | clearAll
  deriving DecidableEq, Repr

/-- A command of the block: the seven of the integrated machine's port (R701), and those of the standalone tools. -/
inductive Command where
  | step
  | reset
  | halt
  | resume
  | loadProgram (p : Program)
  | setAutoRun (enabled : Bool)
  | setSpeed (ms : Nat)
  | regTool (r : RegName) (c : RegCommand)
  | busTool (c : BusCommand)
  | memTool (c : MemCommand)
  deriving DecidableEq, Repr

end Sys2Proof.Machine
end

