-- ==== Sys2Proof/Machine/State.lean ====
section
/-! DEFINITION. The state as plain data (10_state.md R101 to R127), its value at creation, and the reasons a step can
stop. -/

namespace Sys2Proof.Machine

/-- `MachineState`: exactly the tuple of R101. It is also the snapshot the block exposes after each command (R127,
46_host_commands.md R709). -/
structure MachineState where
  ar      : Addr
  pc      : Addr
  dr      : Word
  ac      : Word
  ir      : Word
  tr      : Word
  sc      : BitVec 4
  inpr    : BitVec 8
  outr    : BitVec 8
  e       : BitVec 1
  i       : BitVec 1
  z       : Bool
  n       : Bool
  halted  : Bool
  ctrl    : Ctrl
  mem     : Memory
  log     : List String
  autoRun : Bool
  speedMs : Nat
  deriving DecidableEq, Repr

/-- The whole state: the integrated machine, the standalone tools, which share nothing with it (R125), and two fields of
the model's own. -/
structure State extends MachineState where
  /-- The standalone tools (R122 to R125). -/
  tools     : Tools
  /-- MODEL: the commands that have arrived and are not yet applied, oldest first (R708). Assumption 2. -/
  inbox     : List Command
  /-- MODEL: how many free values have been drawn for the log. Assumption 6. -/
  freeCount : Nat
  deriving DecidableEq, Repr

/-- Why the machine stops with a fault: there is no way. "No error states exist anywhere in the core"
(60_exceptions.md R801), so this closed type has no constructor and no step can answer a fault. Safe. -/
inductive Fault where
  deriving DecidableEq, Repr

/-- Why the model refuses a step. No instruction is refused. -/
inductive Refusal where
  /-- Raised by no meaning: an arm of `exec` that had no meaning yet would answer it. Safe. -/
  | notModelled (mnemonic : String)
  /-- Raised by a register-tool command that its tool does not have (41_registers.md R465: "refused by the model"). Safe. -/
  | toolCommandUndefined
  /-- Raised by a bus DRIVE whose source is not a name of BUS_SOURCES, which R502 requires of it. Safe. -/
  | busSourceUnknown
  deriving DecidableEq, Repr

/-- A fresh register tool: value 0, `lastOp` none (R125, D18). -/
def RegTool.created (w : Nat) : RegTool w := ⟨0#w, .none⟩

/-- The standalone tools at creation (R125, R464, R501, D14, D17, D18). -/
def Tools.created : Tools where
  ar := RegTool.created 12
  pc := RegTool.created 12
  pcNextSource := .increment
  dr := RegTool.created 16
  ac := RegTool.created 16
  ir := RegTool.created 16
  tr := RegTool.created 16
  sc := RegTool.created 4
  inpr := RegTool.created 8
  outr := RegTool.created 8
  e := RegTool.created 1
  i := RegTool.created 1
  bus := ⟨0#16, none, false⟩
  mem := []

/-- The machine right after reset is the machine at creation (R126, 70_reset_and_hazards.md R901): every register 0,
Z true, N false, not halted, Idle, every memory word 0, and `speedMs` the open parameter SPEED_INIT. -/
def State.reset : State where
  ar := 0#12
  pc := 0#12
  dr := 0#16
  ac := 0#16
  ir := 0#16
  tr := 0#16
  sc := 0#4
  inpr := 0#8
  outr := 0#8
  e := 0#1
  i := 0#1
  z := true
  n := false
  halted := false
  ctrl := .idle
  mem := []
  log := []
  autoRun := false
  speedMs := Config.speedInit
  tools := Tools.created
  inbox := []
  freeCount := 0

end Sys2Proof.Machine
end

