-- ==== Sys2Proof/Machine/Ops.lean ====
section
/-! DEFINITION. The named operations over memory, registers, flags and the log. Every register write masks to its width
by the field's type (00_scope.md R16). There is no exception to take or return from (60_exceptions.md R801 to R803), so
no such operation stands here. -/

namespace Sys2Proof.Machine

/-! ### Memory (20_memory.md R201 to R205) -/

/-- The word listed at key `k`, or 0 where none is listed ("0 if never written", R203). -/
def Memory.lookup : Memory → Nat → Word
  | [], _ => 0#16
  | (a, w) :: m, k => if a = k then w else Memory.lookup m k

/-- List word `v` at key `k`, keeping the canonical form: rising keys and no word equal to an unlisted word's 0. -/
def Memory.put : Memory → Nat → Word → Memory
  | [], k, v => if v = 0#16 then [] else [(k, v)]
  | (a, w) :: m, k, v =>
    if k < a then
      if v = 0#16 then (a, w) :: m else (k, v) :: (a, w) :: m
    else if k = a then
      if v = 0#16 then m else (k, v) :: m
    else (a, w) :: Memory.put m k v

/-- Keys rise strictly from `lo` on, stay below 4096, and no listed word is 0. -/
def Memory.wfFrom : Nat → Memory → Bool
  | _, [] => true
  | lo, (a, w) :: m => decide (lo ≤ a) && decide (a < 4096) && w != 0#16 && Memory.wfFrom (a + 1) m

/-- The canonical form of a memory, so that equal memories are equal data. -/
def Memory.wf (m : Memory) : Bool := Memory.wfFrom 0 m

/-- `MemRead(a, 1)`: the word at `mask(a, 12)` (R203). -/
def Memory.read (m : Memory) (a : Nat) : Word := m.lookup (mask a 12).toNat

/-- `MemWrite(a, 1, v)`: `mask(v, 16)` stored at `mask(a, 12)` (R204). -/
def Memory.write (m : Memory) (a v : Nat) : Memory := m.put (mask a 12).toNat (mask v 16)

/-- `CLEAR_ALL`: every word becomes 0 (R205). -/
def Memory.clearAll (_ : Memory) : Memory := []

/-- One entry of a program image: dropped at 4096 or above, not masked (30_encoding.md R311). -/
def Memory.loadEntry (m : Memory) (entry : Nat × Nat) : Memory :=
  if entry.1 < 4096 then m.write entry.1 entry.2 else m

/-- The memory after LOAD_PROGRAM: zero-filled, then each entry written (46_host_commands.md R704, R311). -/
def Memory.loadImage (m : Memory) (p : Program) : Memory := p.foldl Memory.loadEntry m.clearAll

/-! ### Register and flag writes of the integrated machine (10_state.md R102 to R116) -/

/-- `AR <- v` (R102). -/
def State.setAr (s : State) (v : Addr) : State := { s with ar := v }

/-- `PC <- v` (R103). -/
def State.setPc (s : State) (v : Addr) : State := { s with pc := v }

/-- `DR <- v` (R104). -/
def State.setDr (s : State) (v : Word) : State := { s with dr := v }

/-- `AC <- v` (R105). -/
def State.setAc (s : State) (v : Word) : State := { s with ac := v }

/-- `IR <- v` (R106). -/
def State.setIr (s : State) (v : Word) : State := { s with ir := v }

/-- `E <- (1 if carry else 0)` (R110, R603). -/
def State.setE (s : State) (carry : Bool) : State := { s with e := BitVec.ofBool carry }

/-- Z and N as a utility returned them (R112, R113, R406). -/
def State.setZN (s : State) (z n : Bool) : State := { s with z := z, n := n }

/-- `halted <- b` (R115). -/
def State.setHalted (s : State) (b : Bool) : State := { s with halted := b }

/-- `ctrl <- c` (R116). -/
def State.setCtrl (s : State) (c : Ctrl) : State := { s with ctrl := c }

/-- The machine's memory replaced by `m` (R119). -/
def State.setMem (s : State) (m : Memory) : State := { s with mem := m }

/-- The standalone tools replaced by `t` (R125). -/
def State.setTools (s : State) (t : Tools) : State := { s with tools := t }

/-- `M[a]` of the integrated machine at a 12-bit address (R16, R203). -/
def State.memRead (s : State) (a : Addr) : Word := s.mem.read a.toNat

/-- `M[a] <- v` of the integrated machine (R16, R204). -/
def State.memWrite (s : State) (a : Addr) (v : Word) : State := s.setMem (s.mem.write a.toNat v.toNat)

/-- `PC <- mask(PC + 1, 12)` (R554, R608). -/
def State.advancePc (s : State) : State := s.setPc (mask (s.pc.toNat + 1) 12)

/-- An operation's result into AC, with Z and N from it (R112, R113). -/
def State.setAcZN (s : State) (r : AluResult 16) : State := (s.setAc r.result).setZN r.z r.n

/-- The end of every execute step: `ctrl <- Idle`, and the machine goes on (R558). -/
def State.finish (s : State) : Host.Outcome State Fault Refusal := .next (s.setCtrl .idle)

/-! ### The micro-operation log (10_state.md R117, 43_control_unit.md R560; D9) -/

/-- The 10 most recent entries of a log (R117). -/
def keepLastTen (l : List String) : List String := l.drop (l.length - 10)

/-- A STEP that acts may append one string of any contents, and the oldest beyond 10 are dropped (R560). -/
def State.logStep (s : State) : State :=
  { s with
    log := keepLastTen (s.log ++ (Config.freeLogEntry s.freeCount).toList)
    freeCount := s.freeCount + 1 }

/-- The log after any other command is any list of at most 10 strings (R117, R126, D9). -/
def State.logAny (s : State) : State :=
  { s with
    log := keepLastTen (Config.freeLog s.freeCount)
    freeCount := s.freeCount + 1 }

/-! ### Outcomes -/

/-- `f` on the next state; a fault or a refusal passes through. -/
def onNext (f : State → State) : Host.Outcome State Fault Refusal → Host.Outcome State Fault Refusal
  | .next s => .next (f s)
  | .fault r => .fault r
  | .refused r => .refused r

end Sys2Proof.Machine
end

