-- ==== Sys2Proof/Machine/BusTool.lean ====
section
/-! DEFINITION. The standalone bus tool (42_bus.md R501 to R506). A conflict is advisory: it is reported and never blocks
a command, and no command clears it (R506). -/

namespace Sys2Proof.Machine

/-- Whether a source is a name of BUS_SOURCES, which holds `ar`, `pc` and the names the source does not give (R501). -/
def BusSource.known : BusSource → Bool
  | .ar => true
  | .pc => true
  | .other k => decide (k < Config.otherBusSources)

/-- `DRIVE(source, v)`: with no active source it drives (R502), with a different one it sets `conflict` and changes
nothing else (R503), with itself active it drives the new value (R504). -/
def Bus.drive (source : BusSource) (v : Nat) (b : Bus) : Bus :=
  match b.activeSource with
  | none => { b with value := mask v 16, activeSource := some source }
  | some active => if active = source then { b with value := mask v 16 } else { b with conflict := true }

/-- `RELEASE()`: no source is active; `value` and `conflict` stay (R505). -/
def Bus.release (b : Bus) : Bus := { b with activeSource := none }

/-- The bus tool's bus replaced. -/
def State.setBus (s : State) (b : Bus) : State := s.setTools { s.tools with bus := b }

/-- A command to the bus tool. The operand of DRIVE is a name of BUS_SOURCES (R502). -/
def cmdBusTool (c : BusCommand) (s : State) : Host.Outcome State Fault Refusal :=
  match c with
  | .drive source v =>
    if source.known then .next (s.setBus (s.tools.bus.drive source v)) else .refused .busSourceUnknown
  | .release => .next (s.setBus s.tools.bus.release)

end Sys2Proof.Machine
end

