-- ==== Sys2Proof/Syntax.lean ====
section
/-! DEFINITION. The instructions of spec/opcode_table.json, one constructor a row (30_encoding.md R304 to R306). -/

namespace Sys2Proof

/-- An instruction word's meaning as syntax. `ind` is bit 15 and `a` the 12-bit address field (R301). The five
register-reference operations keep bit 15, which does not select them (R305) but which fetch T1 reads (R555). -/
inductive Instr where
  /-- AND memory word with AC (R602). -/
  | and (ind : Bool) (a : Addr)
  /-- Add memory word to AC (R603). -/
  | add (ind : Bool) (a : Addr)
  /-- Load AC from memory (R604). -/
  | lda (ind : Bool) (a : Addr)
  /-- Store AC to memory (R605). -/
  | sta (ind : Bool) (a : Addr)
  /-- Branch unconditionally (R606). -/
  | bun (ind : Bool) (a : Addr)
  /-- Branch and save return address (R607). -/
  | bsa (ind : Bool) (a : Addr)
  /-- Increment and skip if zero (R608). -/
  | isz (ind : Bool) (a : Addr)
  /-- Clear AC (R652). -/
  | cla (ind : Bool)
  /-- Clear E (R653). -/
  | cle (ind : Bool)
  /-- Complement AC (R654). -/
  | cma (ind : Bool)
  /-- Increment AC (R655). -/
  | inc (ind : Bool)
  /-- Halt (R656). -/
  | hlt (ind : Bool)
  /-- An opcode-7 word whose address field is none of the five patterns (R306, R657). -/
  | fallThrough (ind : Bool) (pattern : Addr)
  deriving DecidableEq, Repr

end Sys2Proof
end

