-- ==== Sys2Proof/WellFormed.lean ====
section
/-! DEFINITION. Which terms of `Instr` stand for an instruction word (30_encoding.md R305, R306). -/

namespace Sys2Proof

/-- The five address patterns that select a register-reference operation (R305). -/
def isRegRefPattern (p : Addr) : Bool :=
  p == 0x800#12 || p == 0x400#12 || p == 0x200#12 || p == 0x100#12 || p == 0x001#12

/-- Well-formed: a fall-through word carries none of the five selecting patterns (R306). Every other term is the
meaning of a word. -/
def Instr.wf : Instr → Bool
  | .fallThrough _ p => !isRegRefPattern p
  | .and _ _ | .add _ _ | .lda _ _ | .sta _ _ | .bun _ _ | .bsa _ _ | .isz _ _ => true
  | .cla _ | .cle _ | .cma _ | .inc _ | .hlt _ => true

end Sys2Proof
end

