-- ==== Sys2Proof/Decode.lean ====
section
/-! DEFINITION. The decoder and the encoder of the 16-bit instruction word (30_encoding.md R301 to R310). Decoding is
total: all 65536 words decode and none is rejected (R307), so there is no refusal to name. -/

namespace Sys2Proof

/-- `opcode(IR) = IR[14:12]` (R301). -/
def opcodeOf (w : Word) : BitVec 3 := w.extractLsb' 12 3

/-- `indirect(IR) = (IR[15] == 1)` (R301). -/
def indirectOf (w : Word) : Bool := w.getLsbD 15

/-- `address(IR) = IR[11:0]` (R301). -/
def addressOf (w : Word) : Addr := w.extractLsb' 0 12

/-- Opcode 7: selection by equality of the whole address field with one pattern; any other pattern falls through
(R305, R306). Bit 15 is carried along and not consulted. -/
def decodeRegRef (ind : Bool) (a : Addr) : Instr :=
  if a = 0x800#12 then .cla ind
  else if a = 0x400#12 then .cle ind
  else if a = 0x200#12 then .cma ind
  else if a = 0x100#12 then .inc ind
  else if a = 0x001#12 then .hlt ind
  else .fallThrough ind a

/-- Opcodes 0 to 6, in the order of R304's table; `op` is not 7 here. -/
def decodeMemRef (op : BitVec 3) (ind : Bool) (a : Addr) : Instr :=
  if op = 0#3 then .and ind a
  else if op = 1#3 then .add ind a
  else if op = 2#3 then .lda ind a
  else if op = 3#3 then .sta ind a
  else if op = 4#3 then .bun ind a
  else if op = 5#3 then .bsa ind a
  else .isz ind a

/-- The total decode of R304 to R308, by the three fields of the word. -/
def decode (w : Word) : Instr :=
  if opcodeOf w = 7#3 then decodeRegRef (indirectOf w) (addressOf w)
  else decodeMemRef (opcodeOf w) (indirectOf w) (addressOf w)

/-- The word with bit 15 `ind`, opcode field `op` and address field `a` (R301). -/
def packWord (ind : Bool) (op : BitVec 3) (a : Addr) : Word := BitVec.ofBool ind ++ op ++ a

/-- The word of an instruction, from the tables of R304 and R305: `(I << 15) OR (opcode << 12) OR aaa` (R309). -/
def encode : Instr → Word
  | .and ind a => packWord ind 0#3 a
  | .add ind a => packWord ind 1#3 a
  | .lda ind a => packWord ind 2#3 a
  | .sta ind a => packWord ind 3#3 a
  | .bun ind a => packWord ind 4#3 a
  | .bsa ind a => packWord ind 5#3 a
  | .isz ind a => packWord ind 6#3 a
  | .cla ind => packWord ind 7#3 0x800#12
  | .cle ind => packWord ind 7#3 0x400#12
  | .cma ind => packWord ind 7#3 0x200#12
  | .inc ind => packWord ind 7#3 0x100#12
  | .hlt ind => packWord ind 7#3 0x001#12
  | .fallThrough ind p => packWord ind 7#3 p

/-- What the decoder reads from an instruction whose bits are `w`, numbered as spec/opcode_table.json numbers them.
Every instruction is one 16-bit word (R302), so bits above the first `nbits` are zero and a longer row has none. -/
def decodeTableWord (nbits w : Nat) : Option Instr :=
  if nbits ≤ 16 then some (decode (BitVec.ofNat 16 (w % 2 ^ nbits))) else none

end Sys2Proof
end

