-- ==== Sys2Proof/Machine/Operands.lean ====
section
/-! DEFINITION. The two operand forms and the operation an instruction word selects (44_memory_reference.md R601, R609;
43_control_unit.md R555; 30_encoding.md R308). -/

namespace Sys2Proof.Machine

/-- Direct addressing: the address field itself (R609). -/
def directAddress (ir : Word) : Addr := addressOf ir

/-- Indirect addressing: the low 12 bits of the pointer word, exactly one level (R555, R609). -/
def indirectAddress (m : Memory) (ir : Word) : Addr := mask (m.read (addressOf ir).toNat).toNat 12

/-- What fetch T1 puts into AR, for every opcode (R555). -/
def operandAddress (m : Memory) (ir : Word) : Addr :=
  if indirectOf ir then indirectAddress m ir else directAddress ir

/-- The operation of an instruction; a fall-through word has none (R308, R657). -/
def opOf : Instr → Option Op
  | .and _ _ => some .and
  | .add _ _ => some .add
  | .lda _ _ => some .lda
  | .sta _ _ => some .sta
  | .bun _ _ => some .bun
  | .bsa _ _ => some .bsa
  | .isz _ _ => some .isz
  | .cla _ => some .cla
  | .cle _ => some .cle
  | .cma _ => some .cma
  | .inc _ => some .inc
  | .hlt _ => some .hlt
  | .fallThrough _ _ => none

/-- The instruction that `Execute(op)` performs, with the fields of IR (R558). `ctrl` alone says which operation it is;
where IR decodes to that operation, this is the decoded instruction. -/
def instrOf (op : Op) (ir : Word) : Instr :=
  match op with
  | .and => .and (indirectOf ir) (addressOf ir)
  | .add => .add (indirectOf ir) (addressOf ir)
  | .lda => .lda (indirectOf ir) (addressOf ir)
  | .sta => .sta (indirectOf ir) (addressOf ir)
  | .bun => .bun (indirectOf ir) (addressOf ir)
  | .bsa => .bsa (indirectOf ir) (addressOf ir)
  | .isz => .isz (indirectOf ir) (addressOf ir)
  | .cla => .cla (indirectOf ir)
  | .cle => .cle (indirectOf ir)
  | .cma => .cma (indirectOf ir)
  | .inc => .inc (indirectOf ir)
  | .hlt => .hlt (indirectOf ir)

/-- `decode(IR)` as a control state: `Execute(op)`, or Idle for a fall-through word (R308). -/
def decodeCtrl (ir : Word) : Ctrl :=
  match opOf (decode ir) with
  | some op => .execute op
  | none => .idle

end Sys2Proof.Machine
end

