-- ==== Sys2Proof/Machine/MemoryReference.lean ====
section
/-! DEFINITION. The memory-reference instructions (44_memory_reference.md R601 to R610): what the STEP from
`Execute(op)` does. The operand address is AR as fetch T1 left it, direct or indirect (R555, R558), and PC is already
the address of the next word (R554). -/

namespace Sys2Proof.Machine

/-- `DR <- M[AR]` (R602 to R604). -/
def State.loadDr (s : State) : State := s.setDr (s.memRead s.ar)

/-- AND: `DR <- M[AR]`, `AC <- AC AND DR`, Z and N from the result; E unchanged (R602). -/
def execAnd (s : State) : Host.Outcome State Fault Refusal :=
  let t := s.loadDr
  (t.setAcZN (aluAnd 16 t.ac.toNat t.dr.toNat)).finish

/-- ADD: `DR <- M[AR]`, `AC <- AC + DR`, Z and N from the result, E the carry out of bit 15 (R603). -/
def execAdd (s : State) : Host.Outcome State Fault Refusal :=
  let t := s.loadDr
  ((t.setAcZN (aluAdd 16 t.ac.toNat t.dr.toNat)).setE (aluCarry 16 t.ac.toNat t.dr.toNat)).finish

/-- LDA: `DR <- M[AR]`, `AC <- DR`, Z and N from DR; E unchanged (R604). -/
def execLda (s : State) : Host.Outcome State Fault Refusal :=
  let t := s.loadDr
  (t.setAcZN (.ofResult t.dr)).finish

/-- STA: `M[AR] <- AC`; no flag and not DR (R605). -/
def execSta (s : State) : Host.Outcome State Fault Refusal :=
  (s.memWrite s.ar s.ac).finish

/-- BUN: `PC <- AR` (R606). -/
def execBun (s : State) : Host.Outcome State Fault Refusal :=
  (s.setPc s.ar).finish

/-- BSA: `M[AR] <- zext_16(PC)`, then `PC <- mask(AR + 1, 12)` (R607). -/
def execBsa (s : State) : Host.Outcome State Fault Refusal :=
  ((s.memWrite s.ar (s.pc.setWidth 16)).setPc (mask (s.ar.toNat + 1) 12)).finish

/-- ISZ: `M[AR] <- mask(M[AR] + 1, 16)`; where that is 0, `PC <- mask(PC + 1, 12)`, else PC stays. No flag and not DR (R608). -/
def execIsz (s : State) : Host.Outcome State Fault Refusal :=
  let w := (aluIncrement 16 (s.memRead s.ar).toNat).result
  ((s.memWrite s.ar w).setPc (if w = 0#16 then mask (s.pc.toNat + 1) 12 else s.pc)).finish

end Sys2Proof.Machine
end

