-- ==== Sys2Proof/Machine/RegisterReference.lean ====
section
/-! DEFINITION. The register-reference instructions and the fall-through (45_register_reference.md R651 to R657). None
reads AR or memory (R651). -/

namespace Sys2Proof.Machine

/-- CLA: `AC <- 0`; Z, N and E keep their values (R652). -/
def execCla (s : State) : Host.Outcome State Fault Refusal := (s.setAc 0#16).finish

/-- CLE: `E <- 0` (R653). -/
def execCle (s : State) : Host.Outcome State Fault Refusal := (s.setE false).finish

/-- CMA: AC complemented; the flags the utility returns are discarded (R654). -/
def execCma (s : State) : Host.Outcome State Fault Refusal :=
  (s.setAc (aluComplement 16 s.ac.toNat).result).finish

/-- INC: AC incremented, Z and N from the result; E is not written, even on a wrap (R655). -/
def execInc (s : State) : Host.Outcome State Fault Refusal :=
  (s.setAcZN (aluIncrement 16 s.ac.toNat)).finish

/-- HLT: `halted <- true` (R656). -/
def execHlt (s : State) : Host.Outcome State Fault Refusal := (s.setHalted true).finish

/-- A fall-through word: no state change but `ctrl <- Idle`, performed by the STEP from FetchT2 (R657). -/
def execFallThrough (s : State) : Host.Outcome State Fault Refusal := s.finish

end Sys2Proof.Machine
end

