-- ==== Sys2Proof/Machine/Dispatch.lean ====
section
/-! DEFINITION. One arm per instruction: the operation a STEP performs for it (43_control_unit.md R558). Bit 15 and the
address field have done their work by then: fetch T1 put the operand address into AR (R555). -/

namespace Sys2Proof.Machine

def exec (i : Instr) (s : State) : Host.Outcome State Fault Refusal :=
  match i with
  | .and _ _ => Sys2Proof.Machine.execAnd s
  | .add _ _ => Sys2Proof.Machine.execAdd s
  | .lda _ _ => Sys2Proof.Machine.execLda s
  | .sta _ _ => Sys2Proof.Machine.execSta s
  | .bun _ _ => Sys2Proof.Machine.execBun s
  | .bsa _ _ => Sys2Proof.Machine.execBsa s
  | .isz _ _ => Sys2Proof.Machine.execIsz s
  | .cla _ => Sys2Proof.Machine.execCla s
  | .cle _ => Sys2Proof.Machine.execCle s
  | .cma _ => Sys2Proof.Machine.execCma s
  | .inc _ => Sys2Proof.Machine.execInc s
  | .hlt _ => Sys2Proof.Machine.execHlt s
  | .fallThrough _ _ => Sys2Proof.Machine.execFallThrough s

end Sys2Proof.Machine
end

