-- ==== Sys2Proof/Machine/Control.lean ====
section
/-! DEFINITION. The control unit: what one STEP command does in each control state (43_control_unit.md R551 to R564). -/

namespace Sys2Proof.Machine

/-- Idle: `AR <- PC`, to FetchT0 (R553). -/
def State.beginFetch (s : State) : State := (s.setAr s.pc).setCtrl .fetchT0

/-- FetchT0: `IR <- M[AR]`, `PC <- mask(PC + 1, 12)`, to FetchT1 (R554). -/
def State.fetchWord (s : State) : State := ((s.setIr (s.memRead s.ar)).advancePc).setCtrl .fetchT1

/-- FetchT1: the operand address into AR, for every opcode, to FetchT2 (R555). -/
def State.fetchOperandAddress (s : State) : State :=
  (s.setAr (operandAddress s.mem s.ir)).setCtrl .fetchT2

/-- FetchT2: to `Execute(op)`, changing nothing else (R556). A fall-through word is performed here and now (R657). -/
def State.dispatch (s : State) : Host.Outcome State Fault Refusal :=
  match opOf (decode s.ir) with
  | some op => .next (s.setCtrl (.execute op))
  | none => exec (decode s.ir) s

/-- The row of R551 for the present `ctrl`. -/
def controlStep (s : State) : Host.Outcome State Fault Refusal :=
  match s.ctrl with
  | .idle => .next s.beginFetch
  | .fetchT0 => .next s.fetchWord
  | .fetchT1 => .next s.fetchOperandAddress
  | .fetchT2 => s.dispatch
  | .execute op => exec (instrOf op s.ir) s

/-- Whether a STEP acts: always while not halted, and while halted as STEP_WHEN_HALTED says (R552). -/
def State.stepActs (s : State) : Bool := !(s.halted && Config.stepWhenHalted == .ignore)

/-- The STEP command in full (R564): a STEP that acts performs its row and may log it (R560); one that does not changes
no field. -/
def cmdStep (s : State) : Host.Outcome State Fault Refusal :=
  if s.stepActs then onNext State.logStep (controlStep s) else .next s

end Sys2Proof.Machine
end

