-- ==== Sys2Proof/Machine/HostCommands.lean ====
section
/-! DEFINITION. The host's commands to the integrated machine other than STEP (46_host_commands.md R702 to R706,
70_reset_and_hazards.md R902). None is rejected, in any control state and halted or not (R701). -/

namespace Sys2Proof.Machine

/-- HALT: `halted <- true`, `ctrl <- Idle`; the instruction in flight is abandoned, its effects so far stay (R702). -/
def cmdHalt (s : State) : State := ((s.setHalted true).setCtrl .idle).logAny

/-- RESUME: `halted <- false`; `ctrl` is not changed (R703). -/
def cmdResume (s : State) : State := (s.setHalted false).logAny

/-- LOAD_PROGRAM: the memory becomes the image, `PC <- 0`, `halted <- false`; all else, `ctrl` too, unchanged (R704). -/
def cmdLoadProgram (p : Program) (s : State) : State :=
  (((s.setMem (s.mem.loadImage p)).setPc 0#12).setHalted false).logAny

/-- SET_AUTO_RUN (R705). -/
def cmdSetAutoRun (enabled : Bool) (s : State) : State := { s with autoRun := enabled }.logAny

/-- SET_SPEED (R706). -/
def cmdSetSpeed (ms : Nat) (s : State) : State := { s with speedMs := ms }.logAny

/-- The registers, flags and control state of RESET: all at their creation values (R902, R903); the memory and the host
configuration are left as they are. -/
def State.clearRegisters (s : State) : State :=
  { s with
    ar := 0#12, pc := 0#12, dr := 0#16, ac := 0#16, ir := 0#16, tr := 0#16, sc := 0#4, inpr := 0#8, outr := 0#8
    e := 0#1, i := 0#1, z := true, n := false, halted := false, ctrl := .idle }

/-- RESET (R902); Z is true after it (90_conflicts.md C1), the log any value (D9). -/
def cmdReset (s : State) : State := s.clearRegisters.logAny

end Sys2Proof.Machine
end

