-- ==== Sys2Proof/Machine/MemoryTool.lean ====
section
/-! DEFINITION. The standalone memory tool (20_memory.md R206), over its own array (10_state.md R124). -/

namespace Sys2Proof.Machine

/-- The memory tool's array replaced. -/
def State.setToolMem (s : State) (m : Memory) : State := s.setTools { s.tools with mem := m }

/-- A command to the memory tool: READ changes nothing, WRITE stores, CLEAR_ALL zero-fills (R206). -/
def cmdMemTool (c : MemCommand) (s : State) : State :=
  match c with
  | .read _ => s
  | .write addr value => s.setToolMem (s.tools.mem.write addr value)
  | .clearAll => s.setToolMem s.tools.mem.clearAll

/-- The word a READ command returns; the other commands return none (R206). -/
def memToolReply (c : MemCommand) (s : State) : Option Word :=
  match c with
  | .read addr => some (s.tools.mem.read addr)
  | .write _ _ => none
  | .clearAll => none

end Sys2Proof.Machine
end

