-- ==== Sys2Proof/Machine/RegisterTools.lean ====
section
/-! DEFINITION. The standalone register tools and their commands (41_registers.md R451 to R465). Every operand is masked
to the tool's width and no command fails (R457); a command its tool does not have is refused (R465). -/

namespace Sys2Proof.Machine

/-- `LOAD(v)` (R453). -/
def RegTool.load {w : Nat} (v : Nat) (_ : RegTool w) : RegTool w := ⟨mask v w, .load⟩

/-- `CLEAR` (R454). -/
def RegTool.clear {w : Nat} (_ : RegTool w) : RegTool w := ⟨0#w, .clear⟩

/-- `INCREMENT`: the all-ones value wraps to 0 (R455). -/
def RegTool.increment {w : Nat} (t : RegTool w) : RegTool w := ⟨mask (t.value.toNat + 1) w, .increment⟩

/-- `SET(v)`: the value of `LOAD(v)` (R456). -/
def RegTool.set {w : Nat} (v : Nat) (_ : RegTool w) : RegTool w := ⟨mask v w, .set⟩

/-- One register tool changed by a function that fits every width. -/
def Tools.onReg (r : RegName) (f : (w : Nat) → RegTool w → RegTool w) (t : Tools) : Tools :=
  match r with
  | .ar => { t with ar := f 12 t.ar }
  | .pc => { t with pc := f 12 t.pc }
  | .dr => { t with dr := f 16 t.dr }
  | .ac => { t with ac := f 16 t.ac }
  | .ir => { t with ir := f 16 t.ir }
  | .tr => { t with tr := f 16 t.tr }
  | .sc => { t with sc := f 4 t.sc }
  | .inpr => { t with inpr := f 8 t.inpr }
  | .outr => { t with outr := f 8 t.outr }
  | .e => { t with e := f 1 t.e }
  | .i => { t with i := f 1 t.i }

/-- The width of a register tool (R451). -/
def RegName.width : RegName → Nat
  | .ar | .pc => 12
  | .dr | .ac | .ir | .tr => 16
  | .sc => 4
  | .inpr | .outr => 8
  | .e | .i => 1

/-- The value a register tool holds, as a number (R451). -/
def Tools.valueOf (t : Tools) : RegName → Nat
  | .ar => t.ar.value.toNat
  | .pc => t.pc.value.toNat
  | .dr => t.dr.value.toNat
  | .ac => t.ac.value.toNat
  | .ir => t.ir.value.toNat
  | .tr => t.tr.value.toNat
  | .sc => t.sc.value.toNat
  | .inpr => t.inpr.value.toNat
  | .outr => t.outr.value.toNat
  | .e => t.e.value.toNat
  | .i => t.i.value.toNat

/-- AC tool `AND(v)` (R458). -/
def Tools.acAnd (v : Nat) (t : Tools) : Tools := { t with ac := ⟨t.ac.value &&& mask v 16, .and⟩ }

/-- AC tool `OR(v)` (R459). -/
def Tools.acOr (v : Nat) (t : Tools) : Tools := { t with ac := ⟨t.ac.value ||| mask v 16, .or⟩ }

/-- AC tool `XOR(v)` (R460). -/
def Tools.acXor (v : Nat) (t : Tools) : Tools := { t with ac := ⟨t.ac.value ^^^ mask v 16, .xor⟩ }

/-- AC tool `COMPLEMENT` (R461). -/
def Tools.acComplement (t : Tools) : Tools :=
  { t with ac := ⟨(aluComplement 16 t.ac.value.toNat).result, .complement⟩ }

/-- AC tool `SHIFT_LEFT`: a circulate through the E tool's value (R462). The E tool's `lastOp` stays: assumption 10. -/
def Tools.acShiftLeft (t : Tools) : Tools :=
  { t with
    ac := ⟨(t.ac.value <<< 1) ||| t.e.value.setWidth 16, .shiftLeft⟩
    e := { t.e with value := t.ac.value.extractLsb' 15 1 } }

/-- AC tool `SHIFT_RIGHT`: a circulate through the E tool's value (R463). The E tool's `lastOp` stays: assumption 10. -/
def Tools.acShiftRight (t : Tools) : Tools :=
  { t with
    ac := ⟨(t.e.value.setWidth 16 <<< 15) ||| (t.ac.value >>> 1), .shiftRight⟩
    e := { t.e with value := t.ac.value.extractLsb' 0 1 } }

/-- PC tool `SELECT_NEXT(s)`: the selector is written, the value is not, and nothing reads the selector (R464). -/
def Tools.pcSelectNext (s : NextSource) (t : Tools) : Tools :=
  { t with pcNextSource := s, pc := { t.pc with lastOp := .selectNext } }

/-- Which command which tool has: LOAD, CLEAR, INCREMENT and SET all of them, six more AC, one more PC (R465). -/
def RegCommand.definedFor : RegCommand → RegName → Bool
  | .load _, _ | .clear, _ | .increment, _ | .set _, _ => true
  | .and _, r | .or _, r | .xor _, r | .complement, r | .shiftLeft, r | .shiftRight, r => r == .ac
  | .selectNext _, r => r == .pc

/-- The effect of a command its tool has. -/
def Tools.applyReg (r : RegName) (c : RegCommand) (t : Tools) : Tools :=
  match c with
  | .load v => t.onReg r fun _ => RegTool.load v
  | .clear => t.onReg r fun _ => RegTool.clear
  | .increment => t.onReg r fun _ => RegTool.increment
  | .set v => t.onReg r fun _ => RegTool.set v
  | .and v => t.acAnd v
  | .or v => t.acOr v
  | .xor v => t.acXor v
  | .complement => t.acComplement
  | .shiftLeft => t.acShiftLeft
  | .shiftRight => t.acShiftRight
  | .selectNext s => t.pcSelectNext s

/-- A command to the register tool `r` (R453 to R465). -/
def cmdRegTool (r : RegName) (c : RegCommand) (s : State) : Host.Outcome State Fault Refusal :=
  if c.definedFor r then .next (s.setTools (s.tools.applyReg r c)) else .refused .toolCommandUndefined

end Sys2Proof.Machine
end

