-- ==== Sys2Proof/Machine/Commands.lean ====
section
/-! DEFINITION. The block's dispatcher: a command and a state give the next state (46_host_commands.md R701, R708), and
which command comes next. -/

namespace Sys2Proof.Machine

/-- The effect of one command, complete and atomic (R701, R708). -/
def applyCommand (c : Command) (s : State) : Host.Outcome State Fault Refusal :=
  match c with
  | .step => cmdStep s
  | .reset => .next (cmdReset s)
  | .halt => .next (cmdHalt s)
  | .resume => .next (cmdResume s)
  | .loadProgram p => .next (cmdLoadProgram p s)
  | .setAutoRun enabled => .next (cmdSetAutoRun enabled s)
  | .setSpeed ms => .next (cmdSetSpeed ms s)
  | .regTool r c => cmdRegTool r c s
  | .busTool c => cmdBusTool c s
  | .memTool c => .next (cmdMemTool c s)

/-- Whether the block defines the command: any but a tool command its tool lacks (R465) or a DRIVE by no bus source (R502). -/
def Command.defined : Command → Bool
  | .regTool r c => c.definedFor r
  | .busTool (.drive source _) => source.known
  | .busTool .release => true
  | .step | .reset | .halt | .resume | .loadProgram _ | .setAutoRun _ | .setSpeed _ | .memTool _ => true

/-- MODEL: the command applied next, the oldest that has arrived, or STEP where none is waiting. Assumption 2. -/
def State.nextCommand (s : State) : Command := s.inbox.headD .step

/-- MODEL: the state with that command taken off the list. -/
def State.takeCommand (s : State) : State := { s with inbox := s.inbox.tail }

/-- What the block shows after a command: the read-only snapshot of MachineState (R127, R709). -/
def State.snapshot (s : State) : MachineState := s.toMachineState

/-- The fetch of an instruction word `w` at PC completed: `w` lies at PC, IR, PC and AR are as T0 and T1 leave them, and
the control unit stands where the very next STEP performs the instruction: `Execute(op)`, or FetchT2 for a fall-through
word (R553 to R557). Assumption 12. -/
def State.fetched (s : State) (w : Word) : State :=
  let t := (s.memWrite s.pc w).beginFetch.fetchWord.fetchOperandAddress
  match opOf (decode t.ir) with
  | some op => t.setCtrl (.execute op)
  | none => t

/-- `s` not halted, with no other command waiting. -/
def State.ready (s : State) : State := { s.setHalted false with inbox := [] }

end Sys2Proof.Machine
end

