-- ==== Sys2Proof/Machine/Step.lean ====
section
/-! DEFINITION. One step of the block: the next command, applied (46_host_commands.md R708). -/

namespace Sys2Proof.Machine

/-- One step: the oldest waiting command, or STEP where none waits, is applied. -/
def step (s : State) : Host.Outcome State Fault Refusal := applyCommand s.nextCommand s.takeCommand

/-- `s` set so that the very next `step` performs the one-word instruction whose bits are `w`. -/
def State.withFetchWord (s : State) (nbits w : Nat) : State :=
  s.ready.fetched (BitVec.ofNat 16 (w % 2 ^ nbits))

end Sys2Proof.Machine
end

