-- ==== Sys2Proof/Safety.lean ====
section
/-! DEFINITION. The terms in which statements speak of good states and of runs: the invariant every step keeps, the end
of a run (60_exceptions.md R812, R813), and where a STEP begins an instruction. -/

namespace Sys2Proof.Machine

/-- In `Execute(op)`, IR still holds a word that decodes to op (30_encoding.md R308, 43_control_unit.md R556). -/
def State.PositionMatchesIr (s : State) : Prop := ∀ op, s.ctrl = .execute op → opOf (decode s.ir) = some op

/-- The bus tool's active source, where it has one, is a name of BUS_SOURCES (42_bus.md R501). -/
def State.BusSourceKnown (s : State) : Prop := ∀ src, s.tools.bus.activeSource = some src → src.known = true

/-- The invariant of the block: both memories in canonical form (20_memory.md R201), the log within its 10 entries
(10_state.md R117), the control position in agreement with IR, and the bus driven by a known source or none. -/
structure State.Inv (s : State) : Prop where
  mem      : s.mem.wf = true
  toolMem  : s.tools.mem.wf = true
  log      : s.log.length ≤ 10
  position : s.PositionMatchesIr
  bus      : s.BusSourceKnown

/-- The registers no command of the integrated machine but RESET writes are all zero (10_state.md R107 to R109, R111). -/
def State.InertZero (s : State) : Prop := s.tr = 0 ∧ s.sc = 0 ∧ s.inpr = 0 ∧ s.outr = 0 ∧ s.i = 0

/-- The end of a run: `halted` and Idle (R812). -/
def State.runEnded (s : State) : Prop := s.halted = true ∧ s.ctrl = .idle

/-- IR holds a HLT word: the mark of a run that ended by HLT (R813). -/
def State.irIsHlt (s : State) : Prop := ∃ ind, decode s.ir = .hlt ind

/-- No command waits and the machine is not halted, so that the next steps are acting STEPs (R552). -/
def State.free (s : State) : Prop := s.inbox = [] ∧ s.halted = false

/-- Such a state at Idle: the next STEP begins an instruction (R553). -/
def State.atInstruction (s : State) : Prop := s.free ∧ s.ctrl = .idle

/-- `k` steps of the host's machine, each one command (46_host_commands.md R708). -/
def runSteps (k : Nat) (s : State) : Host.Outcome State Fault Refusal := Host.Core.run Sys2Proof.core k s

end Sys2Proof.Machine
end

