-- ==== Sys2Proof/Certificates/Slice0/Obligations.lean ====
section
/-! DEFINITION. The statements about the Basic Computer core, each from the numbered rules its docstring names. Where a
clause rests on a decision the spec marks as its own (92_eei_decisions.md D1 to D21), the docstring names it.

Every statement about one instruction gives the whole next state as the state before with the named fields replaced:
every register, flag, tool and host field not named keeps its value, and so does every word of memory. Where a word is
stored, the statement gives the word read at EVERY address afterwards. -/

open Sys2Proof Sys2Proof.Machine

/-! ### Creation -/

/-- R126, R901: the state after reset is the creation state. `autoRun` false, the empty log and the parameter SPEED_INIT
rest on the spec's decisions D9 and D10. -/
def Obligations.ResetIsTheCreationState : Prop :=
  let s := State.reset
  (s.ar = 0 ∧ s.pc = 0 ∧ s.dr = 0 ∧ s.ac = 0 ∧ s.ir = 0 ∧ s.tr = 0 ∧ s.sc = 0 ∧ s.inpr = 0 ∧ s.outr = 0 ∧
    s.e = 0 ∧ s.i = 0) ∧
  (s.z = true ∧ s.n = false ∧ s.halted = false ∧ s.ctrl = .idle) ∧
  (∀ a, s.mem.read a = 0) ∧ s.log = [] ∧ s.autoRun = false ∧ s.speedMs = Config.speedInit

/-- R125, R464, R501: every standalone tool is at 0, its tag none, the bus undriven; the spec's decisions D14, D17, D18. -/
def Obligations.ToolsStartAtZero : Prop :=
  let t := State.reset.tools
  (∀ r : RegName, t.valueOf r = 0) ∧ t.pcNextSource = .increment ∧ t.bus = ⟨0, none, false⟩ ∧ (∀ a, t.mem.read a = 0) ∧
  (t.ar.lastOp = .none ∧ t.pc.lastOp = .none ∧ t.dr.lastOp = .none ∧ t.ac.lastOp = .none ∧ t.ir.lastOp = .none ∧
    t.tr.lastOp = .none ∧ t.sc.lastOp = .none ∧ t.inpr.lastOp = .none ∧ t.outr.lastOp = .none ∧
    t.e.lastOp = .none ∧ t.i.lastOp = .none)

/-! ### Encoding -/

/-- R310 and the words of R304, R305: a few words and what they decode to. Opcodes 4, 5, 6 are the spec's decision D2, the
words with bit 15 set D3. -/
def Obligations.ListedWordsDecode : Prop :=
  decode 0x2002 = .lda false 0x002 ∧ decode 0x1003 = .add false 0x003 ∧ decode 0x9014 = .add true 0x014 ∧
  decode 0xC014 = .bun true 0x014 ∧ decode 0x6015 = .isz false 0x015 ∧ decode 0x5FFF = .bsa false 0xFFF ∧
  decode 0x7800 = .cla false ∧ decode 0x7001 = .hlt false ∧ decode 0xF100 = .inc true ∧
  decode 0x7002 = .fallThrough false 0x002

/-- R308: the total decode, over the numbers of the fields: opcode w / 4096 mod 8, address w mod 4096. The values 0, 3, 4,
5, 6 are the spec's decision D2; that bit 15 is not consulted for opcode 7 is D3. -/
def Obligations.DecodeFollowsTheTables : Prop :=
  ∀ w : Word,
    let op := w.toNat / 4096 % 8
    let a := w.toNat % 4096
    decodeCtrl w =
      if op = 0 then .execute .and else if op = 1 then .execute .add else if op = 2 then .execute .lda
      else if op = 3 then .execute .sta else if op = 4 then .execute .bun else if op = 5 then .execute .bsa
      else if op = 6 then .execute .isz
      else if a = 0x800 then .execute .cla else if a = 0x400 then .execute .cle else if a = 0x200 then .execute .cma
      else if a = 0x100 then .execute .inc else if a = 0x001 then .execute .hlt
      else .idle

/-- R301, R304 to R306: decoding the word of a well-formed instruction gives that instruction, with every operand at every
value. -/
def Obligations.DecodeOfEncode : Prop := ∀ i : Instr, i.wf = true → decode (encode i) = i

/-- R307: every word decodes, to a well-formed instruction whose word it is, so each word has exactly one meaning. -/
def Obligations.EncodeOfDecode : Prop := ∀ w : Word, (decode w).wf = true ∧ encode (decode w) = w

/-! ### The arithmetic utilities -/

/-- R402: `add` over all naturals and widths: the masked sum, the carry beyond the width, and Z and N of the masked sum. -/
def Obligations.AluAddLaw : Prop :=
  ∀ a b bits : Nat, 1 ≤ bits →
    let r := aluAdd bits a b
    r.result.toNat = (a + b) % 2 ^ bits ∧ (aluCarry bits a b = true ↔ 2 ^ bits ≤ a + b) ∧
    (r.z = true ↔ (a + b) % 2 ^ bits = 0) ∧ (r.n = true ↔ 2 ^ (bits - 1) ≤ (a + b) % 2 ^ bits)

/-- R401, R403, R404, R405: `mask`, `and`, `complement` and `increment` over all naturals and widths, with the flags of
each masked result; complementing twice gives the masked operand. -/
def Obligations.AluUtilityLaws : Prop :=
  ∀ a b bits : Nat, 1 ≤ bits →
    (mask a bits).toNat = a % 2 ^ bits ∧
    (aluAnd bits a b).result.toNat = (a &&& b) % 2 ^ bits ∧
    (aluComplement bits a).result.toNat = (2 ^ bits - 1) ^^^ (a % 2 ^ bits) ∧
    (aluIncrement bits a).result.toNat = (a + 1) % 2 ^ bits ∧
    (aluComplement bits (aluComplement bits a).result.toNat).result = mask a bits ∧
    ∀ r ∈ [aluAnd bits a b, aluComplement bits a, aluIncrement bits a],
      (r.z = true ↔ r.result.toNat = 0) ∧ (r.n = true ↔ 2 ^ (bits - 1) ≤ r.result.toNat)

/-! ### Memory -/

/-- R202 to R204: an address is folded to 12 bits; a word written reads back, masked to 16 bits, at its address and at
no other; where nothing was written a word reads 0. The canonical form `Memory.wf`, premise and conclusion of the last
clause, is the model's own choice, log entry 7. -/
def Obligations.MemoryReadsWhatWasWritten : Prop :=
  (∀ a, Memory.read [] a = 0) ∧ (∀ (m : Memory) (a : Nat), m.read a = m.read (a % 4096)) ∧
  ∀ (m : Memory) (a v b : Nat), m.wf = true →
    (m.write a v).wf = true ∧
    ((m.write a v).read b).toNat = if b % 4096 = a % 4096 then v % 65536 else (m.read b).toNat

/-- R201, R203 over the model's representation of memory: the canonical form `Memory.wf`, premise of the whole statement,
is the model's own choice, log entry 7, of which no rule speaks. Under it a memory is no more than its 4096 words: two
that read alike at every address are the same data. -/
def Obligations.CanonicalMemoriesAreTheirWords : Prop :=
  ∀ m m' : Memory, m.wf = true → m'.wf = true → (∀ a, m.read a = m'.read a) → m = m'

/-! ### The instructions: what the STEP from `Execute(op)` does -/

/-- R602: AND, in every state. The encoding clause is opcode 0, the spec's decision D2. -/
def Obligations.AndResult : Prop :=
  (∀ (ind : Bool) (a : Addr) (s : State),
    let m := s.memRead s.ar
    exec (.and ind a) s =
      .next { s with dr := m, ac := s.ac &&& m, z := decide (s.ac &&& m = 0), n := (s.ac &&& m).msb, ctrl := .idle }) ∧
  ∀ a : Addr, decode (0x0#4 ++ a) = .and false a ∧ decode (0x8#4 ++ a) = .and true a

/-- R603: ADD, in every state; E is the unsigned carry out of bit 15 and is written on every ADD. -/
def Obligations.AddResult : Prop :=
  (∀ (ind : Bool) (a : Addr) (s : State),
    let m := s.memRead s.ar
    exec (.add ind a) s =
      .next { s with
        dr := m, ac := s.ac + m, e := if 65536 ≤ s.ac.toNat + m.toNat then 1 else 0
        z := decide (s.ac + m = 0), n := (s.ac + m).msb, ctrl := .idle }) ∧
  ∀ a : Addr, decode (0x1#4 ++ a) = .add false a ∧ decode (0x9#4 ++ a) = .add true a

/-- R604: LDA, in every state. -/
def Obligations.LdaResult : Prop :=
  (∀ (ind : Bool) (a : Addr) (s : State),
    let m := s.memRead s.ar
    exec (.lda ind a) s = .next { s with dr := m, ac := m, z := decide (m = 0), n := m.msb, ctrl := .idle }) ∧
  ∀ a : Addr, decode (0x2#4 ++ a) = .lda false a ∧ decode (0xA#4 ++ a) = .lda true a

/-- R605: STA stores AC at AR and changes no other word. That DR keeps its value is the spec's decision D8, opcode 3
D2. The canonical form of the memory is the model's own, log entry 7. -/
def Obligations.StaResult : Prop :=
  (∀ (ind : Bool) (a : Addr) (s : State), s.mem.wf = true →
    ∃ m : Memory, exec (.sta ind a) s = .next { s with mem := m, ctrl := .idle } ∧ m.wf = true ∧
      ∀ b : Addr, m.read b.toNat = if b = s.ar then s.ac else s.memRead b) ∧
  ∀ a : Addr, decode (0x3#4 ++ a) = .sta false a ∧ decode (0xB#4 ++ a) = .sta true a

/-- R606: BUN, in every state. Opcode 4 is the spec's decision D2. -/
def Obligations.BunResult : Prop :=
  (∀ (ind : Bool) (a : Addr) (s : State), exec (.bun ind a) s = .next { s with pc := s.ar, ctrl := .idle }) ∧
  ∀ a : Addr, decode (0x4#4 ++ a) = .bun false a ∧ decode (0xC#4 ++ a) = .bun true a

/-- R607: BSA stores PC, zero-extended, at AR, changes no other word, and goes to AR + 1 mod 4096. Opcode 5 is the
spec's decision D2. The canonical form of the memory is the model's own, log entry 7. -/
def Obligations.BsaResult : Prop :=
  (∀ (ind : Bool) (a : Addr) (s : State), s.mem.wf = true →
    ∃ (m : Memory) (p : Addr), exec (.bsa ind a) s = .next { s with mem := m, pc := p, ctrl := .idle } ∧ m.wf = true ∧
      p.toNat = (s.ar.toNat + 1) % 4096 ∧
      ∀ b : Addr, (m.read b.toNat).toNat = if b = s.ar then s.pc.toNat else (s.memRead b).toNat) ∧
  ∀ a : Addr, decode (0x5#4 ++ a) = .bsa false a ∧ decode (0xD#4 ++ a) = .bsa true a

/-- R608: ISZ increments the word at AR, changes no other word, and skips one word where the new word is 0. That the
flags and DR keep their values are the spec's decisions D5 and D8, opcode 6 D2. The canonical form of the memory is
the model's own, log entry 7. -/
def Obligations.IszResult : Prop :=
  (∀ (ind : Bool) (a : Addr) (s : State), s.mem.wf = true →
    ∃ (m : Memory) (p : Addr), exec (.isz ind a) s = .next { s with mem := m, pc := p, ctrl := .idle } ∧ m.wf = true ∧
      p.toNat = (if (s.memRead s.ar).toNat = 65535 then (s.pc.toNat + 1) % 4096 else s.pc.toNat) ∧
      ∀ b : Addr, (m.read b.toNat).toNat =
        if b = s.ar then ((s.memRead b).toNat + 1) % 65536 else (s.memRead b).toNat) ∧
  ∀ a : Addr, decode (0x6#4 ++ a) = .isz false a ∧ decode (0xE#4 ++ a) = .isz true a

/-- R652: CLA, in every state. That Z and N keep their values is the spec's decision D5, the word 0xF800 D3. -/
def Obligations.ClaResult : Prop :=
  (∀ (ind : Bool) (s : State), exec (.cla ind) s = .next { s with ac := 0, ctrl := .idle }) ∧
  decode 0x7800 = .cla false ∧ decode 0xF800 = .cla true

/-- R653: CLE, in every state. -/
def Obligations.CleResult : Prop :=
  (∀ (ind : Bool) (s : State), exec (.cle ind) s = .next { s with e := 0, ctrl := .idle }) ∧ decode 0x7400 = .cle false

/-- R654: CMA, in every state. That Z and N keep their values is the spec's decision D5, the word 0xF200 D3. -/
def Obligations.CmaResult : Prop :=
  (∀ (ind : Bool) (s : State),
    ∃ v : Word, exec (.cma ind) s = .next { s with ac := v, ctrl := .idle } ∧ v.toNat = 65535 - s.ac.toNat) ∧
  decode 0x7200 = .cma false ∧ decode 0xF200 = .cma true

/-- R655: INC, in every state; E is not written, even when AC wraps. -/
def Obligations.IncResult : Prop :=
  (∀ (ind : Bool) (s : State),
    ∃ v : Word, exec (.inc ind) s = .next { s with ac := v, z := decide (v = 0), n := v.msb, ctrl := .idle } ∧
      v.toNat = (s.ac.toNat + 1) % 65536) ∧
  decode 0x7100 = .inc false

/-- R656: HLT, in every state; PC is left where it is. -/
def Obligations.HltResult : Prop :=
  (∀ (ind : Bool) (s : State), exec (.hlt ind) s = .next { s with halted := true, ctrl := .idle }) ∧
  decode 0x7001 = .hlt false

/-- R657: a fall-through word changes `ctrl` alone, and every opcode-7 word with none of the five patterns is one. That the
effects of the fetch stay is the spec's decision D21, that bit 15 is not consulted D3. -/
def Obligations.FallThroughResult : Prop :=
  (∀ (ind : Bool) (p : Addr) (s : State), exec (.fallThrough ind p) s = .next { s with ctrl := .idle }) ∧
  ∀ p : Addr, p ∉ [0x800#12, 0x400#12, 0x200#12, 0x100#12, 0x001#12] →
    decode (0x7#4 ++ p) = .fallThrough false p ∧ decode (0xF#4 ++ p) = .fallThrough true p

/-! ### The control unit -/

/-- R708 and the model's list of arrived commands (log entry 2): a step applies the oldest command, or STEP where none
waits. -/
def Obligations.StepAppliesTheOldestCommand : Prop :=
  (∀ (s : State) (c : Command) (rest : List Command), s.inbox = c :: rest →
    step s = applyCommand c { s with inbox := rest }) ∧
  ∀ s : State, s.inbox = [] → step s = applyCommand .step s

/-- R556 to R558, R657: in a state where a STEP acts (no command waiting, not halted), `Execute(op)` performs the decoded
instruction, FetchT2 performs a decoded fall-through word, and FetchT2 enters `Execute(op)` for any other; the STEP adds
the log and nothing else. -/
def Obligations.StepRunsTheDecodedInstruction : Prop :=
  ∀ s : State, s.free →
    (∀ op, s.ctrl = .execute op → opOf (decode s.ir) = some op →
      step s = onNext State.logStep (exec (decode s.ir) s)) ∧
    (s.ctrl = .fetchT2 → opOf (decode s.ir) = none → step s = onNext State.logStep (exec (decode s.ir) s)) ∧
    (∀ op, s.ctrl = .fetchT2 → opOf (decode s.ir) = some op →
      step s = .next { s with ctrl := .execute op }.logStep)

/-- R553, R554: the first two STEPs of the fetch. The log and its counter are the only other fields that change. -/
def Obligations.FetchCopiesPcAndReadsTheWord : Prop :=
  ∀ s : State, s.free →
    (s.ctrl = .idle → ∃ l,
      step s = .next { s with ar := s.pc, ctrl := .fetchT0, log := l, freeCount := s.freeCount + 1 }) ∧
    (s.ctrl = .fetchT0 → ∃ l p,
      step s = .next { s with ir := s.memRead s.ar, pc := p, ctrl := .fetchT1, log := l, freeCount := s.freeCount + 1 } ∧
      p.toNat = (s.pc.toNat + 1) % 4096)

/-- R555: the third STEP of the fetch leaves the operand address in AR, direct or through one pointer. That it does so for
opcode 7 too is the spec's decision D3. -/
def Obligations.FetchComputesTheOperandAddress : Prop :=
  ∀ s : State, s.free → s.ctrl = .fetchT1 → ∃ l a,
    step s = .next { s with ar := a, ctrl := .fetchT2, log := l, freeCount := s.freeCount + 1 } ∧
    a.toNat =
      if 32768 ≤ s.ir.toNat then (s.mem.read (s.ir.toNat % 4096)).toNat % 4096 else s.ir.toNat % 4096

/-- R551, R553 to R558, R563: from Idle, five STEPs (four for a fall-through word) run the instruction whose word lies
at PC: fetched, with PC advanced and its operand address in AR, it is performed by `exec`, and no earlier STEP is back
at Idle. Memory, flags and all other fields are as before the fetch when it is performed. That the pointer is followed
for opcode 7 too is the spec's decision D3, that a fall-through word keeps the effects of its fetch D21. -/
def Obligations.CycleRunsTheInstructionAtPc : Prop :=
  ∀ s : State, s.atInstruction →
    let w := s.memRead s.pc
    let a : Addr := if w.msb then (s.mem.read (w.toNat % 4096)).setWidth 12 else w.setWidth 12
    ∃ (l : List String) (c : Nat),
      match opOf (decode w) with
      | some op =>
        runSteps 5 s = onNext State.logStep (exec (decode w)
          { s with ar := a, ir := w, pc := s.pc + 1, ctrl := .execute op, log := l, freeCount := c }) ∧
        ∀ k, 0 < k → k < 5 → ∃ u, runSteps k s = .next u ∧ u.ctrl ≠ .idle
      | none =>
        runSteps 4 s = onNext State.logStep (exec (decode w)
          { s with ar := a, ir := w, pc := s.pc + 1, ctrl := .fetchT2, log := l, freeCount := c }) ∧
        ∀ k, 0 < k → k < 4 → ∃ u, runSteps k s = .next u ∧ u.ctrl ≠ .idle

/-- R601 to R604, R609: from Idle, a word of opcode 0, 1 or 2 at PC loads DR from its effective address, direct or through
one pointer, and leaves AND, sum or the operand itself in AC, with its flags. Opcode 0 is the spec's decision D2. -/
def Obligations.AndAddLdaRunFromIdle : Prop :=
  ∀ s : State, s.atInstruction →
    let w := (s.memRead s.pc).toNat
    let ea := if 32768 ≤ w then (s.mem.read (w % 4096)).toNat % 4096 else w % 4096
    let m := (s.mem.read ea).toNat
    w / 4096 % 8 ≤ 2 →
    ∃ t : State, runSteps 5 s = .next t ∧ t.ctrl = .idle ∧ t.ar.toNat = ea ∧ t.ir.toNat = w ∧
      t.pc.toNat = (s.pc.toNat + 1) % 4096 ∧ t.dr.toNat = m ∧ t.mem = s.mem ∧ t.halted = false ∧
      t.ac.toNat = (if w / 4096 % 8 = 0 then s.ac.toNat &&& m
        else if w / 4096 % 8 = 1 then (s.ac.toNat + m) % 65536 else m) ∧
      (t.z = true ↔ t.ac.toNat = 0) ∧ (t.n = true ↔ 32768 ≤ t.ac.toNat) ∧
      t.e = if w / 4096 % 8 = 1 then (if 65536 ≤ s.ac.toNat + m then 1 else 0) else s.e

/-- R601, R605 to R610: from Idle, a word of opcode 3 to 6 at PC stores, branches, calls or counts at its effective
address, seeing PC already advanced; no flag and neither AC nor DR changes. The opcode values are the spec's decision
D2, the unchanged flags and DR D5 and D8. The canonical form of the memory is the model's own, log entry 7. -/
def Obligations.StaBunBsaIszRunFromIdle : Prop :=
  ∀ s : State, s.atInstruction → s.mem.wf = true →
    let w := (s.memRead s.pc).toNat
    let op := w / 4096 % 8
    let ea := if 32768 ≤ w then (s.mem.read (w % 4096)).toNat % 4096 else w % 4096
    let next := (s.pc.toNat + 1) % 4096
    let m := (s.mem.read ea).toNat
    3 ≤ op → op ≤ 6 →
    ∃ t : State, runSteps 5 s = .next t ∧ t.ctrl = .idle ∧ t.ar.toNat = ea ∧ t.ir.toNat = w ∧ t.ac = s.ac ∧ t.dr = s.dr ∧
      t.e = s.e ∧ t.z = s.z ∧ t.n = s.n ∧ t.halted = false ∧
      t.pc.toNat = (if op = 3 then next else if op = 4 then ea else if op = 5 then (ea + 1) % 4096
        else if m = 65535 then (next + 1) % 4096 else next) ∧
      ∀ b < 4096, (t.mem.read b).toNat =
        if b = ea then (if op = 3 then s.ac.toNat else if op = 4 then m else if op = 5 then next else (m + 1) % 65536)
        else (s.mem.read b).toNat

/-- R651 to R657: from Idle, an opcode-7 word at PC acts on AC, E or `halted` alone by its address field; memory is never
written. Five STEPs for a listed pattern, four for a fall-through word (R563). That bit 15 is not consulted is the spec's
decision D3, that CLA and CMA write no flag D5, that the fetch's effects stay D21. -/
def Obligations.RegisterReferenceRunFromIdle : Prop :=
  ∀ s : State, s.atInstruction →
    let w := (s.memRead s.pc).toNat
    let a := w % 4096
    let listed := a = 0x800 ∨ a = 0x400 ∨ a = 0x200 ∨ a = 0x100 ∨ a = 0x001
    w / 4096 % 8 = 7 →
    ∃ t : State, runSteps (if listed then 5 else 4) s = .next t ∧ t.ctrl = .idle ∧ t.ir.toNat = w ∧
      t.pc.toNat = (s.pc.toNat + 1) % 4096 ∧ t.mem = s.mem ∧ t.dr = s.dr ∧
      t.ac.toNat = (if a = 0x800 then 0 else if a = 0x200 then 65535 - s.ac.toNat
        else if a = 0x100 then (s.ac.toNat + 1) % 65536 else s.ac.toNat) ∧
      t.e = (if a = 0x400 then 0 else s.e) ∧
      t.z = (if a = 0x100 then decide (t.ac = 0) else s.z) ∧ t.n = (if a = 0x100 then t.ac.msb else s.n) ∧
      (t.halted = true ↔ a = 0x001)

/-- R552 for both values of the open parameter (the spec's decision D6): halted, a STEP changes nothing but the model's
list of commands, or acts as if not halted and leaves `halted` true. -/
def Obligations.StepWhileHalted : Prop :=
  ∀ s : State, s.halted = true → s.nextCommand = .step →
    (Config.stepWhenHalted = .ignore → step s = .next { s with inbox := s.inbox.tail }) ∧
    (Config.stepWhenHalted = .proceed →
      step s = onNext (fun t => t.setHalted true) (step (s.setHalted false)))

/-- R218: a store to the next instruction's word is seen by its fetch: after STA at AR = PC, two more STEPs bring AC
into IR. Opcode and DR play no part. The canonical form of the memory is the model's own, log entry 7. -/
def Obligations.StoreIsSeenByTheNextFetch : Prop :=
  ∀ s : State, s.free → s.mem.wf = true → s.ctrl = .execute .sta → s.ar = s.pc →
    ∃ t : State, runSteps 3 s = .next t ∧ t.ctrl = .fetchT1 ∧ t.ir = s.ac ∧ t.pc = s.pc + 1

/-! ### The host's commands -/

/-- R702: HALT, in every state; what the instruction in flight has done stays, and the rest of it never happens. -/
def Obligations.HaltCommandAbandonsTheInstruction : Prop :=
  ∀ (s : State) (rest : List Command), s.inbox = .halt :: rest → ∃ l,
    step s = .next
      { s with halted := true, ctrl := .idle, inbox := rest, log := l, freeCount := s.freeCount + 1 }

/-- R703: RESUME, in every state. -/
def Obligations.ResumeCommandClearsHalted : Prop :=
  ∀ (s : State) (rest : List Command), s.inbox = .resume :: rest → ∃ l,
    step s = .next { s with halted := false, inbox := rest, log := l, freeCount := s.freeCount + 1 }

/-- R704, R311: LOAD_PROGRAM replaces the memory by the image of a map (no key twice): each entry below 4096 masked to
16 bits, entries from 4096 on dropped, absent words 0; PC 0, not halted. That `ctrl` keeps its value is the spec's
decision D7, that keys are naturals D20. The canonical form of the memory is the model's own, log entry 7. -/
def Obligations.LoadProgramInstallsTheImage : Prop :=
  ∀ (s : State) (p : Program) (rest : List Command), s.inbox = .loadProgram p :: rest → (p.map Prod.fst).Nodup →
    ∃ (m : Memory) (l : List String),
      step s = .next
        { s with mem := m, pc := 0, halted := false, inbox := rest, log := l, freeCount := s.freeCount + 1 } ∧
      m.wf = true ∧ (∀ k v, (k, v) ∈ p → k < 4096 → (m.read k).toNat = v % 65536) ∧
      ∀ k < 4096, (∀ v, (k, v) ∉ p) → m.read k = 0

/-- R705, R706: SET_AUTO_RUN and SET_SPEED write their field and, the log apart, no other; the spec's decisions D9, D10. -/
def Obligations.HostConfigurationCommands : Prop :=
  (∀ (s : State) (b : Bool) (rest : List Command), s.inbox = .setAutoRun b :: rest → ∃ l,
    step s = .next { s with autoRun := b, inbox := rest, log := l, freeCount := s.freeCount + 1 }) ∧
  ∀ (s : State) (ms : Nat) (rest : List Command), s.inbox = .setSpeed ms :: rest → ∃ l,
    step s = .next { s with speedMs := ms, inbox := rest, log := l, freeCount := s.freeCount + 1 }

/-- R902, R903: RESET, from every state, gives the creation state with the memory, the host configuration and the tools as
they were. Z true is 90_conflicts.md C1; the free log D9 and the host configuration D10 are the spec's decisions. -/
def Obligations.ResetCommandRestoresCreation : Prop :=
  ∀ (s : State) (rest : List Command), s.inbox = .reset :: rest → ∃ l,
    step s = .next
      { State.reset with
        mem := s.mem, autoRun := s.autoRun, speedMs := s.speedMs, tools := s.tools, inbox := rest, log := l
        freeCount := s.freeCount + 1 }

/-! ### The standalone tools -/

/-- R453, R454, R455: LOAD, CLEAR and INCREMENT on every register tool. That no other register tool's value, nor the
selector, the bus, the memory tool or the machine changes is R125, for the register tools the spec's decision D18. -/
def Obligations.RegisterToolLoadClearIncrement : Prop :=
  ∀ (s : State) (r : RegName) (c : RegCommand) (rest : List Command), s.inbox = .regTool r c :: rest →
    (c = .clear ∨ c = .increment ∨ ∃ v, c = .load v) →
    ∃ t : Tools, step s = .next { s with inbox := rest, tools := t } ∧
      (∀ v, c = .load v → t.valueOf r = v % 2 ^ r.width) ∧ (c = .clear → t.valueOf r = 0) ∧
      (c = .increment → t.valueOf r = (s.tools.valueOf r + 1) % 2 ^ r.width) ∧
      (∀ r', r' ≠ r → t.valueOf r' = s.tools.valueOf r') ∧
      t.bus = s.tools.bus ∧ t.mem = s.tools.mem ∧ t.pcNextSource = s.tools.pcNextSource

/-- R456, R464: SET loads its value, the spec's decision D16; SELECT_NEXT writes the PC tool's selector and no value,
its decision D17. That SET changes no other register tool's value and not the selector, and that both leave the bus, the
memory tool and the machine as they were, is R125, decision D18. -/
def Obligations.SetAndSelectNext : Prop :=
  (∀ (s : State) (r : RegName) (v : Nat) (rest : List Command), s.inbox = .regTool r (.set v) :: rest →
    ∃ t : Tools, step s = .next { s with inbox := rest, tools := t } ∧ t.valueOf r = v % 2 ^ r.width ∧
      (∀ r', r' ≠ r → t.valueOf r' = s.tools.valueOf r') ∧
      t.bus = s.tools.bus ∧ t.mem = s.tools.mem ∧ t.pcNextSource = s.tools.pcNextSource) ∧
  ∀ (s : State) (n : NextSource) (rest : List Command), s.inbox = .regTool .pc (.selectNext n) :: rest →
    ∃ t : Tools, step s = .next { s with inbox := rest, tools := t } ∧ t.pcNextSource = n ∧
      (∀ r, t.valueOf r = s.tools.valueOf r) ∧ t.bus = s.tools.bus ∧ t.mem = s.tools.mem

/-- R458 to R461: AND, OR, XOR and COMPLEMENT on the AC tool, over numbers. That AND, OR and XOR take one operand,
masked to 16 bits, is the spec's decision D15. That no other register tool's value, nor the selector, the bus, the memory tool or
the machine changes is R125, decision D18. -/
def Obligations.AcToolLogic : Prop :=
  ∀ (s : State) (c : RegCommand) (v : Nat) (rest : List Command), s.inbox = .regTool .ac c :: rest →
    (c = .and v ∨ c = .or v ∨ c = .xor v ∨ c = .complement) →
    ∃ t : Tools, step s = .next { s with inbox := rest, tools := t } ∧
      (let ac := s.tools.valueOf .ac
       (c = .and v → t.valueOf .ac = ac &&& (v % 65536)) ∧ (c = .or v → t.valueOf .ac = ac ||| (v % 65536)) ∧
       (c = .xor v → t.valueOf .ac = ac ^^^ (v % 65536)) ∧ (c = .complement → t.valueOf .ac = 65535 - ac)) ∧
      (∀ r, r ≠ .ac → t.valueOf r = s.tools.valueOf r) ∧
      t.bus = s.tools.bus ∧ t.mem = s.tools.mem ∧ t.pcNextSource = s.tools.pcNextSource

/-- R462, R463: the AC tool's shifts circulate through the E tool's value, over numbers. The shift rule is the spec's
decision D15. That no register tool's value but AC's and E's, nor the selector, the bus, the memory tool or the machine
changes is R125, decision D18. -/
def Obligations.AcToolShifts : Prop :=
  ∀ (s : State) (rest : List Command),
    let ac := s.tools.valueOf .ac
    let e := s.tools.valueOf .e
    (s.inbox = .regTool .ac .shiftLeft :: rest →
      ∃ t : Tools, step s = .next { s with inbox := rest, tools := t } ∧
        t.valueOf .ac = (2 * ac + e) % 65536 ∧ t.valueOf .e = ac / 32768 ∧
        (∀ r, r ≠ .ac → r ≠ .e → t.valueOf r = s.tools.valueOf r) ∧
        t.bus = s.tools.bus ∧ t.mem = s.tools.mem ∧ t.pcNextSource = s.tools.pcNextSource) ∧
    (s.inbox = .regTool .ac .shiftRight :: rest →
      ∃ t : Tools, step s = .next { s with inbox := rest, tools := t } ∧
        t.valueOf .ac = 32768 * e + ac / 2 ∧ t.valueOf .e = ac % 2 ∧
        (∀ r, r ≠ .ac → r ≠ .e → t.valueOf r = s.tools.valueOf r) ∧
        t.bus = s.tools.bus ∧ t.mem = s.tools.mem ∧ t.pcNextSource = s.tools.pcNextSource)

/-- R462: seventeen left shifts restore AC and E, and a right shift undoes a left one. Rests on the spec's decision D15. -/
def Obligations.ShiftsCirculate : Prop :=
  ∀ t : Tools,
    ((Tools.acShiftLeft^[17] t).ac.value = t.ac.value ∧ (Tools.acShiftLeft^[17] t).e.value = t.e.value) ∧
    t.acShiftLeft.acShiftRight.ac.value = t.ac.value ∧ t.acShiftLeft.acShiftRight.e.value = t.e.value

/-- R465: every register tool accepts LOAD, CLEAR, INCREMENT and SET; the AC commands are refused by every other tool, and
SELECT_NEXT by every tool but PC's. -/
def Obligations.UndefinedToolCommandsAreRefused : Prop :=
  ∀ (s : State) (r : RegName) (c : RegCommand) (rest : List Command), s.inbox = .regTool r c :: rest →
    ((c = .clear ∨ c = .increment ∨ ∃ v, c = .load v ∨ c = .set v) → ∃ t, step s = .next t) ∧
    ((c = .complement ∨ c = .shiftLeft ∨ c = .shiftRight ∨ ∃ v, c = .and v ∨ c = .or v ∨ c = .xor v) →
      if r = .ac then ∃ t, step s = .next t else step s = .refused .toolCommandUndefined) ∧
    ∀ n, c = .selectNext n → if r = .pc then ∃ t, step s = .next t else step s = .refused .toolCommandUndefined

/-- R503: a DRIVE by a source of the bus while a different one is active sets `conflict` and changes nothing else. -/
def Obligations.BusDriveByASecondSourceConflicts : Prop :=
  ∀ (s : State) (src active : BusSource) (v : Nat) (rest : List Command), s.inbox = .busTool (.drive src v) :: rest →
    src.known = true → s.tools.bus.activeSource = some active → active ≠ src →
    step s = .next
      { s with inbox := rest, tools := { s.tools with bus := { s.tools.bus with conflict := true } } }

/-- R502, R504, R505: a DRIVE on an undriven bus, a DRIVE by the active source, and RELEASE. The mask, the same-source
rule and what RELEASE keeps are the spec's decision D14. `known`, membership of BUS_SOURCES, is log entry 5; that
nothing else changes is R125, decision D18. -/
def Obligations.BusDriveAndRelease : Prop :=
  ∀ (s : State) (rest : List Command) (b : Bus), s.tools.bus = b →
    (∀ src v, s.inbox = .busTool (.drive src v) :: rest → src.known = true →
      (b.activeSource = none ∨ b.activeSource = some src) →
      ∃ w : Word, w.toNat = v % 65536 ∧
        step s = .next { s with inbox := rest, tools := { s.tools with bus := ⟨w, some src, b.conflict⟩ } }) ∧
    (s.inbox = .busTool .release :: rest →
      step s = .next { s with inbox := rest, tools := { s.tools with bus := ⟨b.value, none, b.conflict⟩ } })

/-- R506: no step clears the bus's `conflict`, RESET and every other command included. Rests on the spec's decision
D14. That no command to another unit clears it is R125, decision D18. -/
def Obligations.BusConflictIsNeverCleared : Prop :=
  ∀ s t : State, step s = .next t → s.tools.bus.conflict = true → t.tools.bus.conflict = true

/-- R206: the memory tool's three commands on its own array; READ changes nothing and returns the word. The tool is a
separate array by the spec's decision D18. The canonical form of the memory is the model's own, log entry 7. -/
def Obligations.MemoryToolCommands : Prop :=
  ∀ (s : State) (rest : List Command), s.tools.mem.wf = true →
    (∀ a, s.inbox = .memTool (.read a) :: rest →
      step s = .next { s with inbox := rest } ∧ memToolReply (.read a) s = some (s.tools.mem.read (a % 4096))) ∧
    (∀ a v, s.inbox = .memTool (.write a v) :: rest →
      ∃ m : Memory, step s = .next { s with inbox := rest, tools := { s.tools with mem := m } } ∧ m.wf = true ∧
        ∀ b < 4096, (m.read b).toNat = if b = a % 4096 then v % 65536 else (s.tools.mem.read b).toNat) ∧
    (s.inbox = .memTool .clearAll :: rest →
      ∃ m : Memory, step s = .next { s with inbox := rest, tools := { s.tools with mem := m } } ∧ ∀ b, m.read b = 0)

/-- R125: a tool command leaves the whole integrated machine as it was, and a command to the machine leaves every tool as
it was. Rests on the spec's decision D18. -/
def Obligations.ToolsAndMachineAreApart : Prop :=
  ∀ s t : State, step s = .next t →
    match s.nextCommand with
    | .regTool _ _ | .busTool _ | .memTool _ => t.snapshot = s.snapshot
    | .step | .reset | .halt | .resume | .loadProgram _ | .setAutoRun _ | .setSpeed _ => t.tools = s.tools

/-! ### The whole machine -/

/-- R701, R801, R457, R502: in every state a command that the block defines completes, and any other is refused; no
step faults. A register-tool command that its tool lacks is refused by R465; that a DRIVE by a name outside
BUS_SOURCES is refused is the model's own choice, log entry 5: R502 asks for a name of the set and no rule says what
another would do. -/
def Obligations.DefinedCommandsComplete : Prop :=
  ∀ s : State, if s.nextCommand.defined = true then ∃ t, step s = .next t else ∃ r, step s = .refused r

/-- R110, 90_conflicts.md C5: only an ADD with a carry makes E 1, whatever the state and the command. -/
def Obligations.OnlyAddSetsTheCarry : Prop :=
  ∀ s t : State, step s = .next t → s.e = 0 → t.e = 1 →
    s.nextCommand = .step ∧ s.ctrl = .execute .add ∧ 65536 ≤ s.ac.toNat + (s.memRead s.ar).toNat

/-- R103, R562: PC changes only by fetch T0, BUN, BSA, ISZ, RESET or LOAD_PROGRAM. -/
def Obligations.WhatChangesThePc : Prop :=
  ∀ s t : State, step s = .next t → t.pc ≠ s.pc →
    s.nextCommand = .reset ∨ (∃ p, s.nextCommand = .loadProgram p) ∨
    (s.nextCommand = .step ∧
      (s.ctrl = .fetchT0 ∨ s.ctrl = .execute .bun ∨ s.ctrl = .execute .bsa ∨ s.ctrl = .execute .isz))

/-- R101, R214: a word of memory changes only by LOAD_PROGRAM, or at AR by STA, BSA or ISZ. The canonical form of the
memory is the model's own, log entry 7. -/
def Obligations.WhatChangesMemory : Prop :=
  ∀ (s t : State) (a : Addr), s.mem.wf = true → step s = .next t → t.memRead a ≠ s.memRead a →
    (∃ p, s.nextCommand = .loadProgram p) ∨
    (s.nextCommand = .step ∧ a = s.ar ∧
      (s.ctrl = .execute .sta ∨ s.ctrl = .execute .bsa ∨ s.ctrl = .execute .isz))

/-- R107 to R109, R111: TR, SC, INPR, OUTR and I, once zero, stay zero under every command. For SC this is the spec's
decision D4. -/
def Obligations.InertRegistersStayZero : Prop :=
  ∀ s t : State, s.InertZero → step s = .next t → t.InertZero

/-- R561: a STEP neither reads nor writes TR, SC, INPR, OUTR, I, `autoRun` and `speedMs`, and reads none of E, Z, N: two
states that differ in these alone go to states that differ in these alone; the first seven are as they were, and E, Z and
N are either as they were in both or written alike in both. For SC this rests on the spec's decision D4. -/
def Obligations.StepIgnoresInertState : Prop :=
  ∀ (s t : State) (tr : Word) (sc : BitVec 4) (inpr outr : BitVec 8) (i e : BitVec 1) (z n auto : Bool) (ms : Nat),
    s.nextCommand = .step → step s = .next t →
    ∃ t' : State,
      step { s with tr := tr, sc := sc, inpr := inpr, outr := outr, i := i, e := e, z := z, n := n, autoRun := auto,
                    speedMs := ms } = .next t' ∧
      t' = { t with tr := tr, sc := sc, inpr := inpr, outr := outr, i := i, autoRun := auto, speedMs := ms,
                    e := t'.e, z := t'.z, n := t'.n } ∧
      (t'.e = t.e ∨ (t'.e = e ∧ t.e = s.e)) ∧ (t'.z = t.z ∨ (t'.z = z ∧ t.z = s.z)) ∧
      (t'.n = t.n ∨ (t'.n = n ∧ t.n = s.n))

/-- R812, R813: in a state that keeps the invariant, the STEP that halts the machine ends the run, by a HLT word in
IR. The end of a run is the spec's decision D13. The invariant is the model's, log entries 5 and 7. -/
def Obligations.HaltedByAStepMeansHlt : Prop :=
  ∀ s t : State, s.Inv → s.nextCommand = .step → step s = .next t → s.halted = false → t.halted = true →
    t.runEnded ∧ t.irIsHlt

/-- R117, R201, R501, R556: the creation state meets the invariant. The canonical form is log entry 7, BUS_SOURCES log
entry 5. -/
def Obligations.ResetMeetsTheInvariant : Prop := State.reset.Inv

/-- R117, R201, R501, R556: every step, whatever the command, keeps the invariant: both memories in canonical form, at
most 10 log entries, `Execute(op)` only with IR decoding to op, the bus driven by a known source or none. The
canonical form is log entry 7, BUS_SOURCES log entry 5. -/
def Obligations.StepKeepsTheInvariant : Prop := ∀ s t : State, s.Inv → step s = .next t → t.Inv
end

