-- ==== Sys2Proof/Laws/Decode.lean ====
section
/-! SUPPORT. The fields of a packed word, and the two halves of the decoder. -/

namespace Sys2Proof

/-- Every bit of a packed word. -/
theorem packWord_getLsbD (ind : Bool) (op : BitVec 3) (a : Addr) (k : Nat) :
    (packWord ind op a).getLsbD k =
      if k < 12 then a.getLsbD k else if k - 12 < 3 then op.getLsbD (k - 12) else (k - 12 - 3 == 0 && ind) := by
  have h1 := BitVec.getLsbD_append (x := BitVec.ofBool ind ++ op) (y := a) (i := k)
  have h2 := BitVec.getLsbD_append (x := BitVec.ofBool ind) (y := op) (i := k - 12)
  rw [h2, BitVec.getLsbD_ofBool] at h1
  exact h1

theorem opcodeOf_packWord (ind : Bool) (op : BitVec 3) (a : Addr) : opcodeOf (packWord ind op a) = op := by
  apply BitVec.eq_of_getLsbD_eq
  intro k hk
  simp [opcodeOf, packWord_getLsbD, hk]

theorem indirectOf_packWord (ind : Bool) (op : BitVec 3) (a : Addr) : indirectOf (packWord ind op a) = ind := by
  rw [indirectOf, packWord_getLsbD]
  simp

theorem addressOf_packWord (ind : Bool) (op : BitVec 3) (a : Addr) : addressOf (packWord ind op a) = a := by
  apply BitVec.eq_of_getLsbD_eq
  intro k hk
  simp [addressOf, packWord_getLsbD, hk]

/-- A word is the packing of its three fields (R301). -/
theorem packWord_fields (w : Word) : packWord (indirectOf w) (opcodeOf w) (addressOf w) = w := by
  apply BitVec.eq_of_getLsbD_eq
  intro k hk
  simp only [packWord_getLsbD, indirectOf, opcodeOf, addressOf, BitVec.getLsbD_extractLsb']
  split_ifs with h1 h2
  · simp [h1]
  · have : 12 + (k - 12) = k := by omega
    simp [h2, this]
  · have : k = 15 := by omega
    simp [this]

end Sys2Proof
end

