-- ==== Sys2Proof/Laws/Memory.lean ====
section
/-! SUPPORT. The laws of the word memory: what a write leaves at every key, and that every operation keeps the canonical
form. -/

namespace Sys2Proof.Machine

theorem mask_toNat (v bits : Nat) : (mask v bits).toNat = v % 2 ^ bits := BitVec.toNat_ofNat ..

theorem Memory.wfFrom_cons (lo a : Nat) (w : Word) (m : Memory) :
    Memory.wfFrom lo ((a, w) :: m) = true ↔ lo ≤ a ∧ a < 4096 ∧ w ≠ 0#16 ∧ Memory.wfFrom (a + 1) m = true := by
  simp [Memory.wfFrom, and_assoc]

theorem Memory.wfFrom_mono {lo lo' : Nat} {m : Memory} (h : lo' ≤ lo) (hm : Memory.wfFrom lo m = true) :
    Memory.wfFrom lo' m = true := by
  cases m with
  | nil => rfl
  | cons c m =>
    obtain ⟨a, w⟩ := c
    rw [Memory.wfFrom_cons] at *
    exact ⟨h.trans hm.1, hm.2⟩

/-- A key below every listed key reads 0. -/
theorem Memory.lookup_below {lo k : Nat} {m : Memory} (hm : Memory.wfFrom lo m = true) (hk : k < lo) :
    Memory.lookup m k = 0#16 := by
  induction m generalizing lo with
  | nil => rfl
  | cons c m ih =>
    obtain ⟨a, w⟩ := c
    rw [Memory.wfFrom_cons] at hm
    have : a ≠ k := by omega
    simp [Memory.lookup, this, ih hm.2.2.2 (by omega)]

/-- Everything a canonical memory reads after `put`. -/
theorem Memory.lookup_put {lo : Nat} {m : Memory} (hm : Memory.wfFrom lo m = true) (k j : Nat) (v : Word) :
    Memory.lookup (Memory.put m k v) j = if j = k then v else Memory.lookup m j := by
  induction m generalizing lo with
  | nil =>
    simp only [Memory.put]
    split_ifs <;> simp only [Memory.lookup] <;> first | (split_ifs <;> first | rfl | omega) | simp_all
  | cons c m ih =>
    obtain ⟨a, w⟩ := c
    rw [Memory.wfFrom_cons] at hm
    have below : ∀ i, i ≤ a → Memory.lookup m i = 0#16 := fun i hi => Memory.lookup_below hm.2.2.2 (by omega)
    have ih := ih hm.2.2.2
    simp only [Memory.put]
    split_ifs <;> (try simp only [Memory.lookup]) <;> (try split_ifs) <;> first
      | rfl
      | omega
      | exact (below _ (by omega)).trans (by simp_all)
      | simp_all

/-- `put` keeps the canonical form. -/
theorem Memory.wfFrom_put {lo k : Nat} {m : Memory} (hm : Memory.wfFrom lo m = true) (hlo : lo ≤ k) (hk : k < 4096)
    (v : Word) : Memory.wfFrom lo (Memory.put m k v) = true := by
  induction m generalizing lo with
  | nil => by_cases hv : v = 0#16 <;> simp [Memory.put, Memory.wfFrom, hv, hlo, hk]
  | cons c m ih =>
    obtain ⟨a, w⟩ := c
    have h := (Memory.wfFrom_cons _ _ _ _).1 hm
    simp only [Memory.put]
    split_ifs with h1 h2 h3 h4
    · exact hm
    · exact (Memory.wfFrom_cons _ _ _ _).2 ⟨hlo, hk, h2, (Memory.wfFrom_cons _ _ _ _).2 ⟨h1, h.2⟩⟩
    · exact Memory.wfFrom_mono (by omega) h.2.2.2
    · exact (Memory.wfFrom_cons _ _ _ _).2 ⟨hlo, hk, h4, h3 ▸ h.2.2.2⟩
    · exact (Memory.wfFrom_cons _ _ _ _).2 ⟨h.1, h.2.1, h.2.2.1, ih h.2.2.2 (by omega)⟩

theorem Memory.wf_nil : Memory.wf [] = true := rfl

theorem Memory.wf_write {m : Memory} (hm : m.wf = true) (a v : Nat) : (m.write a v).wf = true :=
  Memory.wfFrom_put hm (Nat.zero_le _) (mask a 12).isLt _

theorem Memory.wf_clearAll (m : Memory) : m.clearAll.wf = true := rfl

theorem Memory.wf_loadEntry {m : Memory} (hm : m.wf = true) (entry : Nat × Nat) : (m.loadEntry entry).wf = true := by
  unfold Memory.loadEntry
  split
  · exact Memory.wf_write hm ..
  · exact hm

theorem Memory.wf_loadImage (m : Memory) (p : Program) : (m.loadImage p).wf = true := by
  have key : ∀ m' : Memory, m'.wf = true → (p.foldl Memory.loadEntry m').wf = true := by
    induction p with
    | nil => exact fun _ h => h
    | cons e p ih => exact fun m' h => ih _ (Memory.wf_loadEntry h e)
  exact key _ (Memory.wf_clearAll m)

/-- The memory of the creation state is canonical, the tool's too. -/
theorem State.reset_mem_wf : State.reset.mem.wf = true ∧ State.reset.tools.mem.wf = true := ⟨rfl, rfl⟩

end Sys2Proof.Machine
end

