-- ==== Sys2Proof/Laws/Flags.lean ====
section
/-! SUPPORT. What the arithmetic utilities give on 16-bit words and on 12-bit addresses. -/

namespace Sys2Proof.Machine

@[simp] theorem mask_toNat_self {w : Nat} (v : BitVec w) : mask v.toNat w = v := BitVec.ofNat_toNat .. |>.trans (by simp)

@[simp] theorem mask_succ {w : Nat} (v : BitVec w) : mask (v.toNat + 1) w = v + 1 := by
  apply BitVec.eq_of_toNat_eq
  simp [mask, BitVec.toNat_add]

theorem mask_narrow (v : Word) : mask v.toNat 12 = v.setWidth 12 := by
  apply BitVec.eq_of_toNat_eq
  simp [mask]

@[simp] theorem ofResult_result {bits : Nat} (r : BitVec bits) : (AluResult.ofResult r).result = r := rfl
@[simp] theorem ofResult_z {bits : Nat} (r : BitVec bits) : (AluResult.ofResult r).z = decide (r = 0#bits) := by
  simp [AluResult.ofResult, flagZ, BEq.beq]
@[simp] theorem ofResult_n {bits : Nat} (r : BitVec bits) : (AluResult.ofResult r).n = r.getLsbD (bits - 1) := rfl

/-- Every utility's flags are those of its masked result (R406). -/
theorem aluAdd_eq (a b : Word) : aluAdd 16 a.toNat b.toNat = .ofResult (a + b) := by
  have h : mask (a.toNat + b.toNat) 16 = a + b := by
    apply BitVec.eq_of_toNat_eq
    rw [mask_toNat, BitVec.toNat_add]
  rw [aluAdd, h]

theorem aluAnd_eq (a b : Word) : aluAnd 16 a.toNat b.toNat = .ofResult (a &&& b) := by
  rw [aluAnd, ← BitVec.toNat_and, mask_toNat_self]

theorem aluComplement_eq (a : Word) : aluComplement 16 a.toNat = .ofResult (~~~ a) := by simp [aluComplement]

theorem aluIncrement_eq (a : Word) : aluIncrement 16 a.toNat = .ofResult (a + 1) := by simp [aluIncrement]

end Sys2Proof.Machine
end

