-- ==== Sys2Proof/Laws/PerInstr.lean ====
section
/-! SUPPORT. Per-instruction statements about the instruction as syntax: the opcode field its word carries (R301, R304,
R305). -/

namespace Sys2Proof

/-- The opcode field of R304 and R305 for each constructor. -/
def Instr.opcode : Instr → BitVec 3
  | .and _ _ => 0#3
  | .add _ _ => 1#3
  | .lda _ _ => 2#3
  | .sta _ _ => 3#3
  | .bun _ _ => 4#3
  | .bsa _ _ => 5#3
  | .isz _ _ => 6#3
  | .cla _ | .cle _ | .cma _ | .inc _ | .hlt _ | .fallThrough _ _ => 7#3

/-- Bit 15 of each constructor. -/
def Instr.ind : Instr → Bool
  | .and b _ | .add b _ | .lda b _ | .sta b _ | .bun b _ | .bsa b _ | .isz b _ => b
  | .cla b | .cle b | .cma b | .inc b | .hlt b | .fallThrough b _ => b

namespace Laws.EncodeFields

/-- The instruction's word carries its opcode field and its bit 15. -/
def Statement (i : Instr) : Prop := opcodeOf (encode i) = i.opcode ∧ indirectOf (encode i) = i.ind

theorem ofPack (b : Bool) (op : BitVec 3) (a : Addr) :
    opcodeOf (packWord b op a) = op ∧ indirectOf (packWord b op a) = b :=
  ⟨opcodeOf_packWord b op a, indirectOf_packWord b op a⟩

theorem and (b : Bool) (a : Addr) : Statement (.and b a) := ofPack b 0#3 a
theorem add (b : Bool) (a : Addr) : Statement (.add b a) := ofPack b 1#3 a
theorem lda (b : Bool) (a : Addr) : Statement (.lda b a) := ofPack b 2#3 a
theorem sta (b : Bool) (a : Addr) : Statement (.sta b a) := ofPack b 3#3 a
theorem bun (b : Bool) (a : Addr) : Statement (.bun b a) := ofPack b 4#3 a
theorem bsa (b : Bool) (a : Addr) : Statement (.bsa b a) := ofPack b 5#3 a
theorem isz (b : Bool) (a : Addr) : Statement (.isz b a) := ofPack b 6#3 a
theorem cla (b : Bool) : Statement (.cla b) := ofPack b 7#3 0x800#12
theorem cle (b : Bool) : Statement (.cle b) := ofPack b 7#3 0x400#12
theorem cma (b : Bool) : Statement (.cma b) := ofPack b 7#3 0x200#12
theorem inc (b : Bool) : Statement (.inc b) := ofPack b 7#3 0x100#12
theorem hlt (b : Bool) : Statement (.hlt b) := ofPack b 7#3 0x001#12
theorem fallThrough (b : Bool) (p : Addr) : Statement (.fallThrough b p) := ofPack b 7#3 p

end Laws.EncodeFields

end Sys2Proof
end

