-- ==== Sys2Proof/Laws/State.lean ====
section
/-! SUPPORT. What each update of the state leaves in each field: one lemma a field and update, so that no proof unfolds a
record update. -/

namespace Sys2Proof.Machine

/-! #### setAr -/

@[simp] theorem State.setAr_ar (s : State) (v : Addr) : (s.setAr v).ar = v := rfl
@[simp] theorem State.setAr_pc (s : State) (v : Addr) : (s.setAr v).pc = s.pc := rfl
@[simp] theorem State.setAr_dr (s : State) (v : Addr) : (s.setAr v).dr = s.dr := rfl
@[simp] theorem State.setAr_ac (s : State) (v : Addr) : (s.setAr v).ac = s.ac := rfl
@[simp] theorem State.setAr_ir (s : State) (v : Addr) : (s.setAr v).ir = s.ir := rfl
@[simp] theorem State.setAr_tr (s : State) (v : Addr) : (s.setAr v).tr = s.tr := rfl
@[simp] theorem State.setAr_sc (s : State) (v : Addr) : (s.setAr v).sc = s.sc := rfl
@[simp] theorem State.setAr_inpr (s : State) (v : Addr) : (s.setAr v).inpr = s.inpr := rfl
@[simp] theorem State.setAr_outr (s : State) (v : Addr) : (s.setAr v).outr = s.outr := rfl
@[simp] theorem State.setAr_e (s : State) (v : Addr) : (s.setAr v).e = s.e := rfl
@[simp] theorem State.setAr_i (s : State) (v : Addr) : (s.setAr v).i = s.i := rfl
@[simp] theorem State.setAr_z (s : State) (v : Addr) : (s.setAr v).z = s.z := rfl
@[simp] theorem State.setAr_n (s : State) (v : Addr) : (s.setAr v).n = s.n := rfl
@[simp] theorem State.setAr_halted (s : State) (v : Addr) : (s.setAr v).halted = s.halted := rfl
@[simp] theorem State.setAr_ctrl (s : State) (v : Addr) : (s.setAr v).ctrl = s.ctrl := rfl
@[simp] theorem State.setAr_mem (s : State) (v : Addr) : (s.setAr v).mem = s.mem := rfl
@[simp] theorem State.setAr_log (s : State) (v : Addr) : (s.setAr v).log = s.log := rfl
@[simp] theorem State.setAr_autoRun (s : State) (v : Addr) : (s.setAr v).autoRun = s.autoRun := rfl
@[simp] theorem State.setAr_speedMs (s : State) (v : Addr) : (s.setAr v).speedMs = s.speedMs := rfl
@[simp] theorem State.setAr_tools (s : State) (v : Addr) : (s.setAr v).tools = s.tools := rfl
@[simp] theorem State.setAr_inbox (s : State) (v : Addr) : (s.setAr v).inbox = s.inbox := rfl
@[simp] theorem State.setAr_freeCount (s : State) (v : Addr) : (s.setAr v).freeCount = s.freeCount := rfl

/-! #### setPc -/

@[simp] theorem State.setPc_ar (s : State) (v : Addr) : (s.setPc v).ar = s.ar := rfl
@[simp] theorem State.setPc_pc (s : State) (v : Addr) : (s.setPc v).pc = v := rfl
@[simp] theorem State.setPc_dr (s : State) (v : Addr) : (s.setPc v).dr = s.dr := rfl
@[simp] theorem State.setPc_ac (s : State) (v : Addr) : (s.setPc v).ac = s.ac := rfl
@[simp] theorem State.setPc_ir (s : State) (v : Addr) : (s.setPc v).ir = s.ir := rfl
@[simp] theorem State.setPc_tr (s : State) (v : Addr) : (s.setPc v).tr = s.tr := rfl
@[simp] theorem State.setPc_sc (s : State) (v : Addr) : (s.setPc v).sc = s.sc := rfl
@[simp] theorem State.setPc_inpr (s : State) (v : Addr) : (s.setPc v).inpr = s.inpr := rfl
@[simp] theorem State.setPc_outr (s : State) (v : Addr) : (s.setPc v).outr = s.outr := rfl
@[simp] theorem State.setPc_e (s : State) (v : Addr) : (s.setPc v).e = s.e := rfl
@[simp] theorem State.setPc_i (s : State) (v : Addr) : (s.setPc v).i = s.i := rfl
@[simp] theorem State.setPc_z (s : State) (v : Addr) : (s.setPc v).z = s.z := rfl
@[simp] theorem State.setPc_n (s : State) (v : Addr) : (s.setPc v).n = s.n := rfl
@[simp] theorem State.setPc_halted (s : State) (v : Addr) : (s.setPc v).halted = s.halted := rfl
@[simp] theorem State.setPc_ctrl (s : State) (v : Addr) : (s.setPc v).ctrl = s.ctrl := rfl
@[simp] theorem State.setPc_mem (s : State) (v : Addr) : (s.setPc v).mem = s.mem := rfl
@[simp] theorem State.setPc_log (s : State) (v : Addr) : (s.setPc v).log = s.log := rfl
@[simp] theorem State.setPc_autoRun (s : State) (v : Addr) : (s.setPc v).autoRun = s.autoRun := rfl
@[simp] theorem State.setPc_speedMs (s : State) (v : Addr) : (s.setPc v).speedMs = s.speedMs := rfl
@[simp] theorem State.setPc_tools (s : State) (v : Addr) : (s.setPc v).tools = s.tools := rfl
@[simp] theorem State.setPc_inbox (s : State) (v : Addr) : (s.setPc v).inbox = s.inbox := rfl
@[simp] theorem State.setPc_freeCount (s : State) (v : Addr) : (s.setPc v).freeCount = s.freeCount := rfl

/-! #### setDr -/

@[simp] theorem State.setDr_ar (s : State) (v : Word) : (s.setDr v).ar = s.ar := rfl
@[simp] theorem State.setDr_pc (s : State) (v : Word) : (s.setDr v).pc = s.pc := rfl
@[simp] theorem State.setDr_dr (s : State) (v : Word) : (s.setDr v).dr = v := rfl
@[simp] theorem State.setDr_ac (s : State) (v : Word) : (s.setDr v).ac = s.ac := rfl
@[simp] theorem State.setDr_ir (s : State) (v : Word) : (s.setDr v).ir = s.ir := rfl
@[simp] theorem State.setDr_tr (s : State) (v : Word) : (s.setDr v).tr = s.tr := rfl
@[simp] theorem State.setDr_sc (s : State) (v : Word) : (s.setDr v).sc = s.sc := rfl
@[simp] theorem State.setDr_inpr (s : State) (v : Word) : (s.setDr v).inpr = s.inpr := rfl
@[simp] theorem State.setDr_outr (s : State) (v : Word) : (s.setDr v).outr = s.outr := rfl
@[simp] theorem State.setDr_e (s : State) (v : Word) : (s.setDr v).e = s.e := rfl
@[simp] theorem State.setDr_i (s : State) (v : Word) : (s.setDr v).i = s.i := rfl
@[simp] theorem State.setDr_z (s : State) (v : Word) : (s.setDr v).z = s.z := rfl
@[simp] theorem State.setDr_n (s : State) (v : Word) : (s.setDr v).n = s.n := rfl
@[simp] theorem State.setDr_halted (s : State) (v : Word) : (s.setDr v).halted = s.halted := rfl
@[simp] theorem State.setDr_ctrl (s : State) (v : Word) : (s.setDr v).ctrl = s.ctrl := rfl
@[simp] theorem State.setDr_mem (s : State) (v : Word) : (s.setDr v).mem = s.mem := rfl
@[simp] theorem State.setDr_log (s : State) (v : Word) : (s.setDr v).log = s.log := rfl
@[simp] theorem State.setDr_autoRun (s : State) (v : Word) : (s.setDr v).autoRun = s.autoRun := rfl
@[simp] theorem State.setDr_speedMs (s : State) (v : Word) : (s.setDr v).speedMs = s.speedMs := rfl
@[simp] theorem State.setDr_tools (s : State) (v : Word) : (s.setDr v).tools = s.tools := rfl
@[simp] theorem State.setDr_inbox (s : State) (v : Word) : (s.setDr v).inbox = s.inbox := rfl
@[simp] theorem State.setDr_freeCount (s : State) (v : Word) : (s.setDr v).freeCount = s.freeCount := rfl

/-! #### setAc -/

@[simp] theorem State.setAc_ar (s : State) (v : Word) : (s.setAc v).ar = s.ar := rfl
@[simp] theorem State.setAc_pc (s : State) (v : Word) : (s.setAc v).pc = s.pc := rfl
@[simp] theorem State.setAc_dr (s : State) (v : Word) : (s.setAc v).dr = s.dr := rfl
@[simp] theorem State.setAc_ac (s : State) (v : Word) : (s.setAc v).ac = v := rfl
@[simp] theorem State.setAc_ir (s : State) (v : Word) : (s.setAc v).ir = s.ir := rfl
@[simp] theorem State.setAc_tr (s : State) (v : Word) : (s.setAc v).tr = s.tr := rfl
@[simp] theorem State.setAc_sc (s : State) (v : Word) : (s.setAc v).sc = s.sc := rfl
@[simp] theorem State.setAc_inpr (s : State) (v : Word) : (s.setAc v).inpr = s.inpr := rfl
@[simp] theorem State.setAc_outr (s : State) (v : Word) : (s.setAc v).outr = s.outr := rfl
@[simp] theorem State.setAc_e (s : State) (v : Word) : (s.setAc v).e = s.e := rfl
@[simp] theorem State.setAc_i (s : State) (v : Word) : (s.setAc v).i = s.i := rfl
@[simp] theorem State.setAc_z (s : State) (v : Word) : (s.setAc v).z = s.z := rfl
@[simp] theorem State.setAc_n (s : State) (v : Word) : (s.setAc v).n = s.n := rfl
@[simp] theorem State.setAc_halted (s : State) (v : Word) : (s.setAc v).halted = s.halted := rfl
@[simp] theorem State.setAc_ctrl (s : State) (v : Word) : (s.setAc v).ctrl = s.ctrl := rfl
@[simp] theorem State.setAc_mem (s : State) (v : Word) : (s.setAc v).mem = s.mem := rfl
@[simp] theorem State.setAc_log (s : State) (v : Word) : (s.setAc v).log = s.log := rfl
@[simp] theorem State.setAc_autoRun (s : State) (v : Word) : (s.setAc v).autoRun = s.autoRun := rfl
@[simp] theorem State.setAc_speedMs (s : State) (v : Word) : (s.setAc v).speedMs = s.speedMs := rfl
@[simp] theorem State.setAc_tools (s : State) (v : Word) : (s.setAc v).tools = s.tools := rfl
@[simp] theorem State.setAc_inbox (s : State) (v : Word) : (s.setAc v).inbox = s.inbox := rfl
@[simp] theorem State.setAc_freeCount (s : State) (v : Word) : (s.setAc v).freeCount = s.freeCount := rfl

/-! #### setIr -/

@[simp] theorem State.setIr_ar (s : State) (v : Word) : (s.setIr v).ar = s.ar := rfl
@[simp] theorem State.setIr_pc (s : State) (v : Word) : (s.setIr v).pc = s.pc := rfl
@[simp] theorem State.setIr_dr (s : State) (v : Word) : (s.setIr v).dr = s.dr := rfl
@[simp] theorem State.setIr_ac (s : State) (v : Word) : (s.setIr v).ac = s.ac := rfl
@[simp] theorem State.setIr_ir (s : State) (v : Word) : (s.setIr v).ir = v := rfl
@[simp] theorem State.setIr_tr (s : State) (v : Word) : (s.setIr v).tr = s.tr := rfl
@[simp] theorem State.setIr_sc (s : State) (v : Word) : (s.setIr v).sc = s.sc := rfl
@[simp] theorem State.setIr_inpr (s : State) (v : Word) : (s.setIr v).inpr = s.inpr := rfl
@[simp] theorem State.setIr_outr (s : State) (v : Word) : (s.setIr v).outr = s.outr := rfl
@[simp] theorem State.setIr_e (s : State) (v : Word) : (s.setIr v).e = s.e := rfl
@[simp] theorem State.setIr_i (s : State) (v : Word) : (s.setIr v).i = s.i := rfl
@[simp] theorem State.setIr_z (s : State) (v : Word) : (s.setIr v).z = s.z := rfl
@[simp] theorem State.setIr_n (s : State) (v : Word) : (s.setIr v).n = s.n := rfl
@[simp] theorem State.setIr_halted (s : State) (v : Word) : (s.setIr v).halted = s.halted := rfl
@[simp] theorem State.setIr_ctrl (s : State) (v : Word) : (s.setIr v).ctrl = s.ctrl := rfl
@[simp] theorem State.setIr_mem (s : State) (v : Word) : (s.setIr v).mem = s.mem := rfl
@[simp] theorem State.setIr_log (s : State) (v : Word) : (s.setIr v).log = s.log := rfl
@[simp] theorem State.setIr_autoRun (s : State) (v : Word) : (s.setIr v).autoRun = s.autoRun := rfl
@[simp] theorem State.setIr_speedMs (s : State) (v : Word) : (s.setIr v).speedMs = s.speedMs := rfl
@[simp] theorem State.setIr_tools (s : State) (v : Word) : (s.setIr v).tools = s.tools := rfl
@[simp] theorem State.setIr_inbox (s : State) (v : Word) : (s.setIr v).inbox = s.inbox := rfl
@[simp] theorem State.setIr_freeCount (s : State) (v : Word) : (s.setIr v).freeCount = s.freeCount := rfl

/-! #### setE -/

@[simp] theorem State.setE_ar (s : State) (v : Bool) : (s.setE v).ar = s.ar := rfl
@[simp] theorem State.setE_pc (s : State) (v : Bool) : (s.setE v).pc = s.pc := rfl
@[simp] theorem State.setE_dr (s : State) (v : Bool) : (s.setE v).dr = s.dr := rfl
@[simp] theorem State.setE_ac (s : State) (v : Bool) : (s.setE v).ac = s.ac := rfl
@[simp] theorem State.setE_ir (s : State) (v : Bool) : (s.setE v).ir = s.ir := rfl
@[simp] theorem State.setE_tr (s : State) (v : Bool) : (s.setE v).tr = s.tr := rfl
@[simp] theorem State.setE_sc (s : State) (v : Bool) : (s.setE v).sc = s.sc := rfl
@[simp] theorem State.setE_inpr (s : State) (v : Bool) : (s.setE v).inpr = s.inpr := rfl
@[simp] theorem State.setE_outr (s : State) (v : Bool) : (s.setE v).outr = s.outr := rfl
@[simp] theorem State.setE_e (s : State) (v : Bool) : (s.setE v).e = BitVec.ofBool v := rfl
@[simp] theorem State.setE_i (s : State) (v : Bool) : (s.setE v).i = s.i := rfl
@[simp] theorem State.setE_z (s : State) (v : Bool) : (s.setE v).z = s.z := rfl
@[simp] theorem State.setE_n (s : State) (v : Bool) : (s.setE v).n = s.n := rfl
@[simp] theorem State.setE_halted (s : State) (v : Bool) : (s.setE v).halted = s.halted := rfl
@[simp] theorem State.setE_ctrl (s : State) (v : Bool) : (s.setE v).ctrl = s.ctrl := rfl
@[simp] theorem State.setE_mem (s : State) (v : Bool) : (s.setE v).mem = s.mem := rfl
@[simp] theorem State.setE_log (s : State) (v : Bool) : (s.setE v).log = s.log := rfl
@[simp] theorem State.setE_autoRun (s : State) (v : Bool) : (s.setE v).autoRun = s.autoRun := rfl
@[simp] theorem State.setE_speedMs (s : State) (v : Bool) : (s.setE v).speedMs = s.speedMs := rfl
@[simp] theorem State.setE_tools (s : State) (v : Bool) : (s.setE v).tools = s.tools := rfl
@[simp] theorem State.setE_inbox (s : State) (v : Bool) : (s.setE v).inbox = s.inbox := rfl
@[simp] theorem State.setE_freeCount (s : State) (v : Bool) : (s.setE v).freeCount = s.freeCount := rfl

/-! #### setZN -/

@[simp] theorem State.setZN_ar (s : State) (z n : Bool) : (s.setZN z n).ar = s.ar := rfl
@[simp] theorem State.setZN_pc (s : State) (z n : Bool) : (s.setZN z n).pc = s.pc := rfl
@[simp] theorem State.setZN_dr (s : State) (z n : Bool) : (s.setZN z n).dr = s.dr := rfl
@[simp] theorem State.setZN_ac (s : State) (z n : Bool) : (s.setZN z n).ac = s.ac := rfl
@[simp] theorem State.setZN_ir (s : State) (z n : Bool) : (s.setZN z n).ir = s.ir := rfl
@[simp] theorem State.setZN_tr (s : State) (z n : Bool) : (s.setZN z n).tr = s.tr := rfl
@[simp] theorem State.setZN_sc (s : State) (z n : Bool) : (s.setZN z n).sc = s.sc := rfl
@[simp] theorem State.setZN_inpr (s : State) (z n : Bool) : (s.setZN z n).inpr = s.inpr := rfl
@[simp] theorem State.setZN_outr (s : State) (z n : Bool) : (s.setZN z n).outr = s.outr := rfl
@[simp] theorem State.setZN_e (s : State) (z n : Bool) : (s.setZN z n).e = s.e := rfl
@[simp] theorem State.setZN_i (s : State) (z n : Bool) : (s.setZN z n).i = s.i := rfl
@[simp] theorem State.setZN_z (s : State) (z n : Bool) : (s.setZN z n).z = z := rfl
@[simp] theorem State.setZN_n (s : State) (z n : Bool) : (s.setZN z n).n = n := rfl
@[simp] theorem State.setZN_halted (s : State) (z n : Bool) : (s.setZN z n).halted = s.halted := rfl
@[simp] theorem State.setZN_ctrl (s : State) (z n : Bool) : (s.setZN z n).ctrl = s.ctrl := rfl
@[simp] theorem State.setZN_mem (s : State) (z n : Bool) : (s.setZN z n).mem = s.mem := rfl
@[simp] theorem State.setZN_log (s : State) (z n : Bool) : (s.setZN z n).log = s.log := rfl
@[simp] theorem State.setZN_autoRun (s : State) (z n : Bool) : (s.setZN z n).autoRun = s.autoRun := rfl
@[simp] theorem State.setZN_speedMs (s : State) (z n : Bool) : (s.setZN z n).speedMs = s.speedMs := rfl
@[simp] theorem State.setZN_tools (s : State) (z n : Bool) : (s.setZN z n).tools = s.tools := rfl
@[simp] theorem State.setZN_inbox (s : State) (z n : Bool) : (s.setZN z n).inbox = s.inbox := rfl
@[simp] theorem State.setZN_freeCount (s : State) (z n : Bool) : (s.setZN z n).freeCount = s.freeCount := rfl

/-! #### setHalted -/

@[simp] theorem State.setHalted_ar (s : State) (v : Bool) : (s.setHalted v).ar = s.ar := rfl
@[simp] theorem State.setHalted_pc (s : State) (v : Bool) : (s.setHalted v).pc = s.pc := rfl
@[simp] theorem State.setHalted_dr (s : State) (v : Bool) : (s.setHalted v).dr = s.dr := rfl
@[simp] theorem State.setHalted_ac (s : State) (v : Bool) : (s.setHalted v).ac = s.ac := rfl
@[simp] theorem State.setHalted_ir (s : State) (v : Bool) : (s.setHalted v).ir = s.ir := rfl
@[simp] theorem State.setHalted_tr (s : State) (v : Bool) : (s.setHalted v).tr = s.tr := rfl
@[simp] theorem State.setHalted_sc (s : State) (v : Bool) : (s.setHalted v).sc = s.sc := rfl
@[simp] theorem State.setHalted_inpr (s : State) (v : Bool) : (s.setHalted v).inpr = s.inpr := rfl
@[simp] theorem State.setHalted_outr (s : State) (v : Bool) : (s.setHalted v).outr = s.outr := rfl
@[simp] theorem State.setHalted_e (s : State) (v : Bool) : (s.setHalted v).e = s.e := rfl
@[simp] theorem State.setHalted_i (s : State) (v : Bool) : (s.setHalted v).i = s.i := rfl
@[simp] theorem State.setHalted_z (s : State) (v : Bool) : (s.setHalted v).z = s.z := rfl
@[simp] theorem State.setHalted_n (s : State) (v : Bool) : (s.setHalted v).n = s.n := rfl
@[simp] theorem State.setHalted_halted (s : State) (v : Bool) : (s.setHalted v).halted = v := rfl
@[simp] theorem State.setHalted_ctrl (s : State) (v : Bool) : (s.setHalted v).ctrl = s.ctrl := rfl
@[simp] theorem State.setHalted_mem (s : State) (v : Bool) : (s.setHalted v).mem = s.mem := rfl
@[simp] theorem State.setHalted_log (s : State) (v : Bool) : (s.setHalted v).log = s.log := rfl
@[simp] theorem State.setHalted_autoRun (s : State) (v : Bool) : (s.setHalted v).autoRun = s.autoRun := rfl
@[simp] theorem State.setHalted_speedMs (s : State) (v : Bool) : (s.setHalted v).speedMs = s.speedMs := rfl
@[simp] theorem State.setHalted_tools (s : State) (v : Bool) : (s.setHalted v).tools = s.tools := rfl
@[simp] theorem State.setHalted_inbox (s : State) (v : Bool) : (s.setHalted v).inbox = s.inbox := rfl
@[simp] theorem State.setHalted_freeCount (s : State) (v : Bool) : (s.setHalted v).freeCount = s.freeCount := rfl

/-! #### setCtrl -/

@[simp] theorem State.setCtrl_ar (s : State) (v : Ctrl) : (s.setCtrl v).ar = s.ar := rfl
@[simp] theorem State.setCtrl_pc (s : State) (v : Ctrl) : (s.setCtrl v).pc = s.pc := rfl
@[simp] theorem State.setCtrl_dr (s : State) (v : Ctrl) : (s.setCtrl v).dr = s.dr := rfl
@[simp] theorem State.setCtrl_ac (s : State) (v : Ctrl) : (s.setCtrl v).ac = s.ac := rfl
@[simp] theorem State.setCtrl_ir (s : State) (v : Ctrl) : (s.setCtrl v).ir = s.ir := rfl
@[simp] theorem State.setCtrl_tr (s : State) (v : Ctrl) : (s.setCtrl v).tr = s.tr := rfl
@[simp] theorem State.setCtrl_sc (s : State) (v : Ctrl) : (s.setCtrl v).sc = s.sc := rfl
@[simp] theorem State.setCtrl_inpr (s : State) (v : Ctrl) : (s.setCtrl v).inpr = s.inpr := rfl
@[simp] theorem State.setCtrl_outr (s : State) (v : Ctrl) : (s.setCtrl v).outr = s.outr := rfl
@[simp] theorem State.setCtrl_e (s : State) (v : Ctrl) : (s.setCtrl v).e = s.e := rfl
@[simp] theorem State.setCtrl_i (s : State) (v : Ctrl) : (s.setCtrl v).i = s.i := rfl
@[simp] theorem State.setCtrl_z (s : State) (v : Ctrl) : (s.setCtrl v).z = s.z := rfl
@[simp] theorem State.setCtrl_n (s : State) (v : Ctrl) : (s.setCtrl v).n = s.n := rfl
@[simp] theorem State.setCtrl_halted (s : State) (v : Ctrl) : (s.setCtrl v).halted = s.halted := rfl
@[simp] theorem State.setCtrl_ctrl (s : State) (v : Ctrl) : (s.setCtrl v).ctrl = v := rfl
@[simp] theorem State.setCtrl_mem (s : State) (v : Ctrl) : (s.setCtrl v).mem = s.mem := rfl
@[simp] theorem State.setCtrl_log (s : State) (v : Ctrl) : (s.setCtrl v).log = s.log := rfl
@[simp] theorem State.setCtrl_autoRun (s : State) (v : Ctrl) : (s.setCtrl v).autoRun = s.autoRun := rfl
@[simp] theorem State.setCtrl_speedMs (s : State) (v : Ctrl) : (s.setCtrl v).speedMs = s.speedMs := rfl
@[simp] theorem State.setCtrl_tools (s : State) (v : Ctrl) : (s.setCtrl v).tools = s.tools := rfl
@[simp] theorem State.setCtrl_inbox (s : State) (v : Ctrl) : (s.setCtrl v).inbox = s.inbox := rfl
@[simp] theorem State.setCtrl_freeCount (s : State) (v : Ctrl) : (s.setCtrl v).freeCount = s.freeCount := rfl

/-! #### setMem -/

@[simp] theorem State.setMem_ar (s : State) (v : Memory) : (s.setMem v).ar = s.ar := rfl
@[simp] theorem State.setMem_pc (s : State) (v : Memory) : (s.setMem v).pc = s.pc := rfl
@[simp] theorem State.setMem_dr (s : State) (v : Memory) : (s.setMem v).dr = s.dr := rfl
@[simp] theorem State.setMem_ac (s : State) (v : Memory) : (s.setMem v).ac = s.ac := rfl
@[simp] theorem State.setMem_ir (s : State) (v : Memory) : (s.setMem v).ir = s.ir := rfl
@[simp] theorem State.setMem_tr (s : State) (v : Memory) : (s.setMem v).tr = s.tr := rfl
@[simp] theorem State.setMem_sc (s : State) (v : Memory) : (s.setMem v).sc = s.sc := rfl
@[simp] theorem State.setMem_inpr (s : State) (v : Memory) : (s.setMem v).inpr = s.inpr := rfl
@[simp] theorem State.setMem_outr (s : State) (v : Memory) : (s.setMem v).outr = s.outr := rfl
@[simp] theorem State.setMem_e (s : State) (v : Memory) : (s.setMem v).e = s.e := rfl
@[simp] theorem State.setMem_i (s : State) (v : Memory) : (s.setMem v).i = s.i := rfl
@[simp] theorem State.setMem_z (s : State) (v : Memory) : (s.setMem v).z = s.z := rfl
@[simp] theorem State.setMem_n (s : State) (v : Memory) : (s.setMem v).n = s.n := rfl
@[simp] theorem State.setMem_halted (s : State) (v : Memory) : (s.setMem v).halted = s.halted := rfl
@[simp] theorem State.setMem_ctrl (s : State) (v : Memory) : (s.setMem v).ctrl = s.ctrl := rfl
@[simp] theorem State.setMem_mem (s : State) (v : Memory) : (s.setMem v).mem = v := rfl
@[simp] theorem State.setMem_log (s : State) (v : Memory) : (s.setMem v).log = s.log := rfl
@[simp] theorem State.setMem_autoRun (s : State) (v : Memory) : (s.setMem v).autoRun = s.autoRun := rfl
@[simp] theorem State.setMem_speedMs (s : State) (v : Memory) : (s.setMem v).speedMs = s.speedMs := rfl
@[simp] theorem State.setMem_tools (s : State) (v : Memory) : (s.setMem v).tools = s.tools := rfl
@[simp] theorem State.setMem_inbox (s : State) (v : Memory) : (s.setMem v).inbox = s.inbox := rfl
@[simp] theorem State.setMem_freeCount (s : State) (v : Memory) : (s.setMem v).freeCount = s.freeCount := rfl

/-! #### setTools -/

@[simp] theorem State.setTools_ar (s : State) (v : Tools) : (s.setTools v).ar = s.ar := rfl
@[simp] theorem State.setTools_pc (s : State) (v : Tools) : (s.setTools v).pc = s.pc := rfl
@[simp] theorem State.setTools_dr (s : State) (v : Tools) : (s.setTools v).dr = s.dr := rfl
@[simp] theorem State.setTools_ac (s : State) (v : Tools) : (s.setTools v).ac = s.ac := rfl
@[simp] theorem State.setTools_ir (s : State) (v : Tools) : (s.setTools v).ir = s.ir := rfl
@[simp] theorem State.setTools_tr (s : State) (v : Tools) : (s.setTools v).tr = s.tr := rfl
@[simp] theorem State.setTools_sc (s : State) (v : Tools) : (s.setTools v).sc = s.sc := rfl
@[simp] theorem State.setTools_inpr (s : State) (v : Tools) : (s.setTools v).inpr = s.inpr := rfl
@[simp] theorem State.setTools_outr (s : State) (v : Tools) : (s.setTools v).outr = s.outr := rfl
@[simp] theorem State.setTools_e (s : State) (v : Tools) : (s.setTools v).e = s.e := rfl
@[simp] theorem State.setTools_i (s : State) (v : Tools) : (s.setTools v).i = s.i := rfl
@[simp] theorem State.setTools_z (s : State) (v : Tools) : (s.setTools v).z = s.z := rfl
@[simp] theorem State.setTools_n (s : State) (v : Tools) : (s.setTools v).n = s.n := rfl
@[simp] theorem State.setTools_halted (s : State) (v : Tools) : (s.setTools v).halted = s.halted := rfl
@[simp] theorem State.setTools_ctrl (s : State) (v : Tools) : (s.setTools v).ctrl = s.ctrl := rfl
@[simp] theorem State.setTools_mem (s : State) (v : Tools) : (s.setTools v).mem = s.mem := rfl
@[simp] theorem State.setTools_log (s : State) (v : Tools) : (s.setTools v).log = s.log := rfl
@[simp] theorem State.setTools_autoRun (s : State) (v : Tools) : (s.setTools v).autoRun = s.autoRun := rfl
@[simp] theorem State.setTools_speedMs (s : State) (v : Tools) : (s.setTools v).speedMs = s.speedMs := rfl
@[simp] theorem State.setTools_tools (s : State) (v : Tools) : (s.setTools v).tools = v := rfl
@[simp] theorem State.setTools_inbox (s : State) (v : Tools) : (s.setTools v).inbox = s.inbox := rfl
@[simp] theorem State.setTools_freeCount (s : State) (v : Tools) : (s.setTools v).freeCount = s.freeCount := rfl

/-! #### logStep -/

@[simp] theorem State.logStep_ar (s : State) : (s.logStep).ar = s.ar := rfl
@[simp] theorem State.logStep_pc (s : State) : (s.logStep).pc = s.pc := rfl
@[simp] theorem State.logStep_dr (s : State) : (s.logStep).dr = s.dr := rfl
@[simp] theorem State.logStep_ac (s : State) : (s.logStep).ac = s.ac := rfl
@[simp] theorem State.logStep_ir (s : State) : (s.logStep).ir = s.ir := rfl
@[simp] theorem State.logStep_tr (s : State) : (s.logStep).tr = s.tr := rfl
@[simp] theorem State.logStep_sc (s : State) : (s.logStep).sc = s.sc := rfl
@[simp] theorem State.logStep_inpr (s : State) : (s.logStep).inpr = s.inpr := rfl
@[simp] theorem State.logStep_outr (s : State) : (s.logStep).outr = s.outr := rfl
@[simp] theorem State.logStep_e (s : State) : (s.logStep).e = s.e := rfl
@[simp] theorem State.logStep_i (s : State) : (s.logStep).i = s.i := rfl
@[simp] theorem State.logStep_z (s : State) : (s.logStep).z = s.z := rfl
@[simp] theorem State.logStep_n (s : State) : (s.logStep).n = s.n := rfl
@[simp] theorem State.logStep_halted (s : State) : (s.logStep).halted = s.halted := rfl
@[simp] theorem State.logStep_ctrl (s : State) : (s.logStep).ctrl = s.ctrl := rfl
@[simp] theorem State.logStep_mem (s : State) : (s.logStep).mem = s.mem := rfl
@[simp] theorem State.logStep_log (s : State) : (s.logStep).log = keepLastTen (s.log ++ (Config.freeLogEntry s.freeCount).toList) := rfl
@[simp] theorem State.logStep_autoRun (s : State) : (s.logStep).autoRun = s.autoRun := rfl
@[simp] theorem State.logStep_speedMs (s : State) : (s.logStep).speedMs = s.speedMs := rfl
@[simp] theorem State.logStep_tools (s : State) : (s.logStep).tools = s.tools := rfl
@[simp] theorem State.logStep_inbox (s : State) : (s.logStep).inbox = s.inbox := rfl
@[simp] theorem State.logStep_freeCount (s : State) : (s.logStep).freeCount = s.freeCount + 1 := rfl

/-! #### logAny -/

@[simp] theorem State.logAny_ar (s : State) : (s.logAny).ar = s.ar := rfl
@[simp] theorem State.logAny_pc (s : State) : (s.logAny).pc = s.pc := rfl
@[simp] theorem State.logAny_dr (s : State) : (s.logAny).dr = s.dr := rfl
@[simp] theorem State.logAny_ac (s : State) : (s.logAny).ac = s.ac := rfl
@[simp] theorem State.logAny_ir (s : State) : (s.logAny).ir = s.ir := rfl
@[simp] theorem State.logAny_tr (s : State) : (s.logAny).tr = s.tr := rfl
@[simp] theorem State.logAny_sc (s : State) : (s.logAny).sc = s.sc := rfl
@[simp] theorem State.logAny_inpr (s : State) : (s.logAny).inpr = s.inpr := rfl
@[simp] theorem State.logAny_outr (s : State) : (s.logAny).outr = s.outr := rfl
@[simp] theorem State.logAny_e (s : State) : (s.logAny).e = s.e := rfl
@[simp] theorem State.logAny_i (s : State) : (s.logAny).i = s.i := rfl
@[simp] theorem State.logAny_z (s : State) : (s.logAny).z = s.z := rfl
@[simp] theorem State.logAny_n (s : State) : (s.logAny).n = s.n := rfl
@[simp] theorem State.logAny_halted (s : State) : (s.logAny).halted = s.halted := rfl
@[simp] theorem State.logAny_ctrl (s : State) : (s.logAny).ctrl = s.ctrl := rfl
@[simp] theorem State.logAny_mem (s : State) : (s.logAny).mem = s.mem := rfl
@[simp] theorem State.logAny_log (s : State) : (s.logAny).log = keepLastTen (Config.freeLog s.freeCount) := rfl
@[simp] theorem State.logAny_autoRun (s : State) : (s.logAny).autoRun = s.autoRun := rfl
@[simp] theorem State.logAny_speedMs (s : State) : (s.logAny).speedMs = s.speedMs := rfl
@[simp] theorem State.logAny_tools (s : State) : (s.logAny).tools = s.tools := rfl
@[simp] theorem State.logAny_inbox (s : State) : (s.logAny).inbox = s.inbox := rfl
@[simp] theorem State.logAny_freeCount (s : State) : (s.logAny).freeCount = s.freeCount + 1 := rfl

end Sys2Proof.Machine
end

