-- ==== Sys2Proof/Laws/Step.lean ====
section
/-! SUPPORT. Everything a step can do, said once for each shared operation: the provers cite these and unfold no step
function. -/

namespace Sys2Proof.Machine

@[simp] theorem onNext_next (f : State → State) (s : State) : onNext f (.next s) = .next (f s) := rfl

theorem onNext_eq_next {f : State → State} {o : Host.Outcome State Fault Refusal} {t : State} :
    onNext f o = .next t ↔ ∃ u, o = .next u ∧ f u = t := by
  constructor
  · intro h
    cases o with
    | next u => exact ⟨u, rfl, by injection h⟩
    | fault r => cases h
    | refused r => cases h
  · rintro ⟨u, rfl, rfl⟩
    rfl

theorem finish_eq (s : State) : s.finish = .next (s.setCtrl .idle) := rfl

/-- An operation's instruction has that operation. -/
theorem opOf_instrOf (op : Op) (ir : Word) : opOf (instrOf op ir) = some op := by cases op <;> rfl

/-- Every word decodes to an operation's instruction or to the fall-through, with the word's own fields (R307). -/
theorem decode_cases (w : Word) :
    (∃ op, decode w = instrOf op w) ∨ decode w = .fallThrough (indirectOf w) (addressOf w) := by
  unfold decode
  split
  · unfold decodeRegRef
    split; · exact .inl ⟨.cla, rfl⟩
    split; · exact .inl ⟨.cle, rfl⟩
    split; · exact .inl ⟨.cma, rfl⟩
    split; · exact .inl ⟨.inc, rfl⟩
    split; · exact .inl ⟨.hlt, rfl⟩
    exact .inr rfl
  · unfold decodeMemRef
    split; · exact .inl ⟨.and, rfl⟩
    split; · exact .inl ⟨.add, rfl⟩
    split; · exact .inl ⟨.lda, rfl⟩
    split; · exact .inl ⟨.sta, rfl⟩
    split; · exact .inl ⟨.bun, rfl⟩
    split; · exact .inl ⟨.bsa, rfl⟩
    exact .inl ⟨.isz, rfl⟩

/-- Where IR decodes to `Execute(op)`, the operation performed is the decoded instruction (R558). -/
theorem instrOf_decode {op : Op} {ir : Word} (h : opOf (decode ir) = some op) : instrOf op ir = decode ir := by
  obtain ⟨op', h'⟩ | h' := decode_cases ir
  · rw [h', opOf_instrOf] at h
    rw [h', ← Option.some.inj h]
  · rw [h'] at h
    cases h

/-- FetchT2 either enters `Execute(op)`, or performs a fall-through word and is Idle (R556, R657). -/
theorem dispatch_cases (s : State) :
    (∃ op, opOf (decode s.ir) = some op ∧ s.dispatch = .next (s.setCtrl (.execute op))) ∨
    (opOf (decode s.ir) = none ∧ s.dispatch = .next (s.setCtrl .idle)) := by
  cases h : opOf (decode s.ir) with
  | some op => exact .inl ⟨op, rfl, by simp [State.dispatch, h]⟩
  | none =>
    refine .inr ⟨rfl, ?_⟩
    simp only [State.dispatch, h]
    cases hd : decode s.ir <;> simp [hd, opOf] at h
    rfl

/-- One STEP that answers next either acted, by its row of R551 and the log, or did nothing (R552, R564). -/
theorem cmdStep_cases {s t : State} (h : cmdStep s = .next t) :
    (s.stepActs = true ∧ ∃ u, controlStep s = .next u ∧ u.logStep = t) ∨ (s.stepActs = false ∧ t = s) := by
  unfold cmdStep at h
  split at h
  · exact .inl ⟨‹_›, onNext_eq_next.1 h⟩
  · exact .inr ⟨by simpa using ‹¬ s.stepActs = true›, by simpa using h.symm⟩

/-- The rows of R551. -/
theorem controlStep_cases {s u : State} (h : controlStep s = .next u) :
    (s.ctrl = .idle ∧ u = s.beginFetch) ∨ (s.ctrl = .fetchT0 ∧ u = s.fetchWord) ∨
    (s.ctrl = .fetchT1 ∧ u = s.fetchOperandAddress) ∨ (s.ctrl = .fetchT2 ∧ s.dispatch = .next u) ∨
    (∃ op, s.ctrl = .execute op ∧ exec (instrOf op s.ir) s = .next u) := by
  unfold controlStep at h
  split at h
  · exact .inl ⟨‹_›, by simpa using h.symm⟩
  · exact .inr (.inl ⟨‹_›, by simpa using h.symm⟩)
  · exact .inr (.inr (.inl ⟨‹_›, by simpa using h.symm⟩))
  · exact .inr (.inr (.inr (.inl ⟨‹_›, h⟩)))
  · exact .inr (.inr (.inr (.inr ⟨_, ‹_›, h⟩)))

theorem stepActs_of_not_halted {s : State} (h : s.halted = false) : s.stepActs = true := by simp [State.stepActs, h]

theorem cmdStep_of_not_halted {s : State} (h : s.halted = false) : cmdStep s = onNext State.logStep (controlStep s) := by
  simp [cmdStep, stepActs_of_not_halted h]

theorem step_eq (s : State) : step s = applyCommand s.nextCommand s.takeCommand := rfl

/-- With no command waiting a step is one STEP. -/
theorem step_of_empty {s : State} (h : s.inbox = []) : step s = cmdStep s := by
  have ht : s.takeCommand = s := by cases s; simp_all [State.takeCommand]
  rw [step_eq, ht]
  simp [State.nextCommand, h, applyCommand]

/-- With a command waiting a step applies it. -/
theorem step_of_cons {s : State} {c : Command} {rest : List Command} (h : s.inbox = c :: rest) :
    step s = applyCommand c { s with inbox := rest } := by
  simp [step_eq, State.nextCommand, State.takeCommand, h]

theorem keepLastTen_length (l : List String) : (keepLastTen l).length ≤ 10 := by simp [keepLastTen]; omega

end Sys2Proof.Machine
end

