-- ==== Sys2Proof/Laws/Run.lean ====
section
/-! SUPPORT. Runs of several steps, and the three fetch STEPs of a state in which STEPs act. -/

namespace Sys2Proof.Machine

theorem runSteps_zero (s : State) : runSteps 0 s = .next s := rfl

/-- A run begins with one step and goes on from where it leads. -/
theorem runSteps_succ {s t : State} (h : step s = .next t) (k : Nat) : runSteps (k + 1) s = runSteps k t := by
  unfold runSteps
  rw [Host.Core.run.eq_2 Sys2Proof.core s k, show Sys2Proof.core.step s = .next t from h]

theorem runSteps_one (s : State) : runSteps 1 s = step s := by
  cases h : step s with
  | next t => exact runSteps_succ h 0
  | fault r =>
    unfold runSteps
    rw [Host.Core.run.eq_2 Sys2Proof.core s 0, show Sys2Proof.core.step s = .fault r from h]
    rfl
  | refused r =>
    unfold runSteps
    rw [Host.Core.run.eq_2 Sys2Proof.core s 0, show Sys2Proof.core.step s = .refused r from h]
    rfl

/-- Where STEPs act a step is its row of R551, and the log. -/
theorem step_of_free {s : State} (h : s.free) : step s = onNext State.logStep (controlStep s) := by
  rw [step_of_empty h.1, cmdStep_of_not_halted h.2]

theorem step_idle {s : State} (h : s.free) (hc : s.ctrl = .idle) : step s = .next s.beginFetch.logStep := by
  rw [step_of_free h, controlStep, hc]
  rfl

theorem step_fetchT0 {s : State} (h : s.free) (hc : s.ctrl = .fetchT0) : step s = .next s.fetchWord.logStep := by
  rw [step_of_free h, controlStep, hc]
  rfl

theorem step_fetchT1 {s : State} (h : s.free) (hc : s.ctrl = .fetchT1) :
    step s = .next s.fetchOperandAddress.logStep := by
  rw [step_of_free h, controlStep, hc]
  rfl

end Sys2Proof.Machine
end

