-- ==== Sys2Proof/Tests/Slice0.lean ====
section
/-! SUPPORT. The model's own tests. Every expected value is the spec's: the worked examples and vectors of
95_test_vectors.md (named in each comment), the tables of 30_encoding.md, or the rule named. After them, for each
obligation with hypotheses, a state and operands that meet them. -/

namespace Sys2Proof.Tests

open Sys2Proof.Machine

/-! ### Helpers -/

/-- Whether an outcome is a next state with the property `p`. -/
def after (o : Host.Outcome State Fault Refusal) (p : State → Bool) : Bool :=
  match o with
  | .next t => p t
  | .fault _ => false
  | .refused _ => false

/-- Whether an outcome is the refusal `r`. -/
def isRefused (o : Host.Outcome State Fault Refusal) (r : Refusal) : Bool :=
  match o with
  | .refused r' => r' == r
  | .next _ => false
  | .fault _ => false

/-- A state about to perform `op`, with the instruction word `ir` fetched from 0x010 and operand address 0x020. -/
def executing (op : Op) (ir : Word) (m : Memory) : State :=
  { State.reset with ctrl := .execute op, ir := ir, ar := 0x020, pc := 0x011, mem := m }

/-- The creation state with one command waiting. -/
def waiting (c : Command) : State := { State.reset with inbox := [c] }

/-- The creation state with the tools changed and one command waiting. -/
def waitingWith (t : Tools) (c : Command) : State := { State.reset with tools := t, inbox := [c] }

/-- The creation state with the word `w` at the reset PC. -/
def wordAtZero (w : Word) : State := { State.reset with mem := [(0, w)] }

/-- The opcode number of the word at the reset PC. -/
def opcodeAtZero (w : Word) : Nat := ((wordAtZero w).memRead 0).toNat / 4096 % 8

/-! ### Well-formedness: each check refuses an ill-formed term (R305, R306) -/

theorem test_wf_refuses_cla_pattern : (Instr.fallThrough false 0x800).wf = false := by decide
theorem test_wf_refuses_cle_pattern : (Instr.fallThrough true 0x400).wf = false := by decide
theorem test_wf_refuses_cma_pattern : (Instr.fallThrough false 0x200).wf = false := by decide
theorem test_wf_refuses_inc_pattern : (Instr.fallThrough true 0x100).wf = false := by decide
theorem test_wf_refuses_hlt_pattern : (Instr.fallThrough false 0x001).wf = false := by decide
theorem test_wf_accepts_two_bits : (Instr.fallThrough false 0xC00).wf = true := by decide

/-! ### Decoding, from the words of R304, R305 and 2.5 to 2.7 of the vectors, written bit by bit -/

theorem test_decode_and : decode 0b0000000000100000 = .and false 0x020 := by decide
theorem test_decode_and_indirect : decode 0b1000000000010000 = .and true 0x010 := by decide
theorem test_decode_add : decode 0b0001000000000011 = .add false 0x003 := by decide
theorem test_decode_lda : decode 0b1010000000010000 = .lda true 0x010 := by decide
theorem test_decode_sta : decode 0b1011000000100000 = .sta true 0x020 := by decide
theorem test_decode_bun : decode 0b0100000100100011 = .bun false 0x123 := by decide
theorem test_decode_bsa : decode 0b0101111111111111 = .bsa false 0xFFF := by decide
theorem test_decode_isz : decode 0b0110000000100000 = .isz false 0x020 := by decide
theorem test_decode_cla : decode 0b0111100000000000 = .cla false := by decide
theorem test_decode_cla_bit15 : decode 0b1111100000000000 = .cla true := by decide
theorem test_decode_cle : decode 0b0111010000000000 = .cle false := by decide
theorem test_decode_cma : decode 0b0111001000000000 = .cma false := by decide
theorem test_decode_inc : decode 0b0111000100000000 = .inc false := by decide
theorem test_decode_hlt : decode 0b1111000000000001 = .hlt true := by decide
/-- V-I11: Mano's INC falls through here. -/
theorem test_decode_7020 : decode 0b0111000000100000 = .fallThrough false 0x020 := by decide
/-- V-I16: two selector bits select nothing. -/
theorem test_decode_7801 : decode 0b0111100000000001 = .fallThrough false 0x801 := by decide
/-- R310: `BUN 014 I` is 0xC014. -/
theorem test_encode_bun : encode (.bun true 0x014) = 0xC014 := by decide
/-- The opcode table's row of CMA. -/
theorem test_table_word_cma : decodeTableWord 16 0x7200 = some (.cma false) := by decide

/-! ### The fetch (2.5 of the vectors) -/

/-- V-F1. -/
theorem test_fetch_idle :
    after (step { State.reset with pc := 0x123 }) (fun t => t.ar == 0x123 && t.ctrl == .fetchT0) = true := by decide
/-- V-F3: PC wraps. -/
theorem test_fetch_t0_wraps :
    after (step { State.reset with ctrl := .fetchT0, ar := 0xFFF, pc := 0xFFF, mem := [(0xFFF, 0x7001)] })
      (fun t => t.ir == 0x7001 && t.pc == 0 && t.ctrl == .fetchT1) = true := by decide
/-- V-F5, W8: exactly one level of indirection. -/
theorem test_fetch_t1_one_level :
    after (step { State.reset with ctrl := .fetchT1, ir := 0x8010, mem := [(0x010, 0x0020), (0x020, 0x8030)] })
      (fun t => t.ar == 0x020 && t.ctrl == .fetchT2) = true := by decide
/-- V-F7: opcode 7 follows the pointer too. -/
theorem test_fetch_t1_opcode7 :
    after (step { State.reset with ctrl := .fetchT1, ir := 0xF800, mem := [(0x800, 0x1ABC)] })
      (fun t => t.ar == 0xABC) = true := by decide
/-- V-F9. -/
theorem test_fetch_t2_hlt :
    after (step { State.reset with ctrl := .fetchT2, ir := 0xF001 }) (fun t => t.ctrl == .execute .hlt) = true := by decide

/-! ### The instructions (2.6 and 2.7 of the vectors) -/

/-- V-M1. -/
theorem test_and :
    after (step { executing .and 0x0020 [(0x020, 0x0F0F)] with ac := 0x00FF })
      (fun t => t.dr == 0x0F0F && t.ac == 0x000F && !t.z && !t.n && t.ctrl == .idle) = true := by decide
/-- V-M3. -/
theorem test_and_negative :
    after (step { executing .and 0x0020 [(0x020, 0xFFFF)] with ac := 0x8001 }) (fun t => t.ac == 0x8001 && t.n) = true := by
  decide
/-- V-M6. -/
theorem test_add_carry :
    after (step { executing .add 0x1020 [(0x020, 0x0001)] with ac := 0xFFFF, z := false })
      (fun t => t.ac == 0 && t.e == 1 && t.z && !t.n) = true := by decide
/-- V-M5: no carry clears E. -/
theorem test_add_clears_e :
    after (step { executing .add 0x1020 [(0x020, 0x000A)] with ac := 0x000F, e := 1 })
      (fun t => t.ac == 0x0019 && t.e == 0) = true := by decide
/-- V-M10. -/
theorem test_lda :
    after (step { executing .lda 0x2020 [(0x020, 0x8000)] with ac := 0x1111, e := 1 })
      (fun t => t.ac == 0x8000 && t.dr == 0x8000 && t.e == 1 && !t.z && t.n) = true := by decide
/-- V-M12. -/
theorem test_sta :
    after (step { executing .sta 0x3020 [(0x020, 0xAAAA)] with ac := 0x1234, dr := 0x0055 })
      (fun t => t.mem == [(0x020, 0x1234)] && t.dr == 0x0055) = true := by decide
/-- V-M14. -/
theorem test_bun : after (step { executing .bun 0x4123 [] with ar := 0x123 }) (fun t => t.pc == 0x123) = true := by decide
/-- V-M17. -/
theorem test_bsa :
    after (step (executing .bsa 0x5020 [])) (fun t => t.mem == [(0x020, 0x0011)] && t.pc == 0x021) = true := by decide
/-- V-M18: AR + 1 wraps. -/
theorem test_bsa_wraps :
    after (step { executing .bsa 0x5FFF [] with ar := 0xFFF }) (fun t => t.mem == [(0xFFF, 0x0011)] && t.pc == 0) = true := by
  decide
/-- V-M22, W7: the skip; a word that becomes 0 is no longer listed. -/
theorem test_isz_skips :
    after (step (executing .isz 0x6020 [(0x020, 0xFFFF)])) (fun t => t.mem == [] && t.pc == 0x012) = true := by decide
/-- V-M23. -/
theorem test_isz_does_not_skip :
    after (step { executing .isz 0x6020 [(0x020, 0x7FFF)] with dr := 0x0033, z := false })
      (fun t => t.mem == [(0x020, 0x8000)] && t.pc == 0x011 && t.dr == 0x0033 && !t.z && !t.n) = true := by decide
/-- V-I1: no flag. -/
theorem test_cla :
    after (step { executing .cla 0x7800 [] with ac := 0x1234, z := false }) (fun t => t.ac == 0 && !t.z) = true := by decide
/-- V-I3. -/
theorem test_cle :
    after (step { executing .cle 0x7400 [] with ac := 1, e := 1 }) (fun t => t.e == 0 && t.ac == 1) = true := by decide
/-- V-I4: no flag. -/
theorem test_cma :
    after (step (executing .cma 0x7200 [])) (fun t => t.ac == 0xFFFF && t.z && !t.n) = true := by decide
/-- V-I6: no carry into E. -/
theorem test_inc_wraps :
    after (step { executing .inc 0x7100 [] with ac := 0xFFFF, z := false, n := true })
      (fun t => t.ac == 0 && t.z && !t.n && t.e == 0) = true := by decide
/-- V-I7. -/
theorem test_inc_negative :
    after (step { executing .inc 0x7100 [] with ac := 0x7FFF, e := 1, z := false })
      (fun t => t.ac == 0x8000 && t.n && t.e == 1) = true := by decide
/-- V-I8. -/
theorem test_hlt :
    after (step (executing .hlt 0x7001 [])) (fun t => t.halted && t.pc == 0x011 && t.ctrl == .idle) = true := by decide
/-- V-I12, W9. -/
theorem test_fall_through :
    after (step { State.reset with ctrl := .fetchT2, ir := 0x7002, ac := 0x0042 })
      (fun t => t.ctrl == .idle && t.ac == 0x0042 && t.ir == 0x7002) = true := by decide

/-! ### The host's commands (2.8 of the vectors) -/

/-- V-H1. -/
theorem test_halt :
    after (step { waiting .halt with ctrl := .fetchT2, pc := 0x006, ir := 0x1003 })
      (fun t => t.halted && t.ctrl == .idle && t.pc == 0x006 && t.ir == 0x1003) = true := by decide
/-- V-H3. -/
theorem test_resume :
    after (step { waiting .resume with halted := true, pc := 0x005 }) (fun t => !t.halted && t.pc == 0x005) = true := by decide
/-- V-H4: 5000 is dropped, not masked. -/
theorem test_load_program :
    after (step { waiting (.loadProgram [(0, 0x12345), (5000, 7)]) with halted := true, pc := 0x123, ac := 0x5555 })
      (fun t => t.mem == [(0, 0x2345)] && t.pc == 0 && !t.halted && t.ac == 0x5555) = true := by decide
/-- V-H7. -/
theorem test_reset :
    after (step { waiting .reset with ctrl := .execute .add, ac := 0x1234, e := 1, z := false, n := true, pc := 0x7FF
                                      halted := true, mem := [(0, 0x2002)] })
      (fun t => t.ac == 0 && t.e == 0 && t.z && !t.n && t.pc == 0 && !t.halted && t.ctrl == .idle
        && t.mem == [(0, 0x2002)]) = true := by decide
/-- V-H6. -/
theorem test_set_speed : after (step (waiting (.setSpeed 250))) (fun t => t.speedMs == 250) = true := by decide
/-- V-H5. -/
theorem test_set_auto_run : after (step (waiting (.setAutoRun true))) (fun t => t.autoRun) = true := by decide

/-! ### The standalone tools (2.2 to 2.4 of the vectors) -/

/-- V-RT2. -/
theorem test_tool_load :
    after (step (waiting (.regTool .ar (.load 0x1234)))) (fun t => t.tools.ar == ⟨0x234, .load⟩) = true := by decide
/-- V-RT8. -/
theorem test_tool_increment :
    after (step (waitingWith { Tools.created with sc := ⟨0xF, .none⟩ } (.regTool .sc .increment)))
      (fun t => t.tools.sc == ⟨0, .increment⟩) = true := by decide
/-- V-RT16. -/
theorem test_tool_shift_left :
    after (step (waitingWith { Tools.created with ac := ⟨0x4001, .none⟩, e := ⟨1, .none⟩ } (.regTool .ac .shiftLeft)))
      (fun t => t.tools.ac == ⟨0x8003, .shiftLeft⟩ && t.tools.e == ⟨0, .none⟩) = true := by decide
/-- V-RT18. -/
theorem test_tool_shift_right :
    after (step (waitingWith { Tools.created with ac := ⟨0x8002, .none⟩, e := ⟨1, .none⟩ } (.regTool .ac .shiftRight)))
      (fun t => t.tools.ac.value == 0xC001 && t.tools.e.value == 0) = true := by decide
/-- V-RT20. -/
theorem test_tool_select_next :
    after (step (waitingWith { Tools.created with pc := ⟨0x123, .none⟩ } (.regTool .pc (.selectNext .branch))))
      (fun t => t.tools.pc.value == 0x123 && t.tools.pcNextSource == .branch) = true := by decide
/-- V-RT21. -/
theorem test_tool_refuses : isRefused (step (waiting (.regTool .ar .complement))) .toolCommandUndefined = true := by decide
/-- V-B2, W10. -/
theorem test_bus_conflict :
    after (step (waitingWith { Tools.created with bus := ⟨5, some .ar, false⟩ } (.busTool (.drive .pc 7))))
      (fun t => t.tools.bus == ⟨5, some .ar, true⟩) = true := by decide
/-- V-B4. -/
theorem test_bus_release :
    after (step (waitingWith { Tools.created with bus := ⟨5, some .ar, false⟩ } (.busTool .release)))
      (fun t => t.tools.bus == ⟨5, none, false⟩) = true := by decide
/-- V-T3. -/
theorem test_memory_tool_write :
    after (step (waiting (.memTool (.write 0x000 0x12345))))
      (fun t => memToolReply (.read 0x1000) t == some 0x2345) = true := by decide
/-- V-T5. -/
theorem test_memory_tool_clear :
    after (step (waitingWith { Tools.created with mem := [(7, 1)] } (.memTool .clearAll)))
      (fun t => memToolReply (.read 7) t == some 0) = true := by decide

/-! ### The next step runs the word placed by `withFetchWord` (R553 to R558) -/

/-- `ISZ 015` placed at the reset PC: the very next step counts the word at 0x015 up to 1. -/
theorem test_withFetchWord_isz :
    after (step (State.reset.withFetchWord 16 0x6015)) (fun t => t.mem == [(0, 0x6015), (0x015, 1)] && t.pc == 1) = true := by
  decide
/-- A fall-through word placed there: the very next step only returns to Idle. -/
theorem test_withFetchWord_fallThrough :
    after (step (State.reset.withFetchWord 16 0x7002)) (fun t => t.ctrl == .idle && t.pc == 1 && t.ir == 0x7002) = true := by
  decide

/-! ### Witnesses: for every obligation with hypotheses, what meets them -/

theorem witness_DecodeOfEncode : (Instr.fallThrough true 0xFFF).wf = true ∧ (Instr.isz true 0xFFF).wf = true := by decide
theorem witness_AluAddLaw : (1 ≤ 1) ∧ (aluAdd 1 1 1).result = 0 ∧ aluCarry 1 1 1 = true ∧ (aluAdd 1 1 1).z = true := by decide
theorem witness_AluUtilityLaws : (1 ≤ 16) ∧ (aluIncrement 16 0x7FFF).n = true ∧ (aluComplement 16 0xFFFF).z = true := by
  decide
/-- A canonical memory with a word at each end of the address space. -/
theorem witness_MemoryReadsWhatWasWritten :
    Memory.wf [(0, 0x0001), (4095, 0xFFFF)] = true ∧ 4096 % 4096 = 0 % 4096 := by decide
theorem witness_CanonicalMemoriesAreTheirWords :
    ∃ m m' : Memory, m.wf = true ∧ m'.wf = true ∧ m ≠ [] ∧ ∀ a, m.read a = m'.read a :=
  ⟨[(5, 7)], [(5, 7)], by decide, by decide, by decide, fun _ => rfl⟩
theorem witness_StaResult : (executing .sta 0x3020 [(0x020, 0xAAAA)]).mem.wf = true := by decide
theorem witness_BsaResult : ({ executing .bsa 0x5FFF [(0xFFF, 1)] with ar := 0xFFF }).mem.wf = true := by decide
/-- Both cases of the skip. -/
theorem witness_IszResult :
    (executing .isz 0x6020 [(0x020, 0xFFFF)]).mem.wf = true ∧
    ((executing .isz 0x6020 [(0x020, 0xFFFF)]).memRead 0x020).toNat = 65535 ∧
    ((executing .isz 0x6020 [(0x020, 0xFFFE)]).memRead 0x020).toNat ≠ 65535 := by decide
theorem witness_FallThroughResult : (0x000#12) ∉ [0x800#12, 0x400#12, 0x200#12, 0x100#12, 0x001#12] := by decide
theorem witness_StepAppliesTheOldestCommand :
    (waiting .halt).inbox = .halt :: [] ∧ (executing .hlt 0x7001 []).inbox = [] := ⟨rfl, rfl⟩
/-- One state for each of the three clauses. -/
theorem witness_StepRunsTheDecodedInstruction :
    ((executing .hlt 0x7001 []).free ∧ opOf (decode (executing .hlt 0x7001 []).ir) = some .hlt) ∧
    (({ State.reset with ctrl := .fetchT2, ir := 0x7002 }).free ∧ opOf (decode 0x7002) = none) ∧
    (({ State.reset with ctrl := .fetchT2, ir := 0x6020 }).free ∧ opOf (decode 0x6020) = some .isz) :=
  ⟨⟨⟨rfl, rfl⟩, by decide⟩, ⟨⟨rfl, rfl⟩, by decide⟩, ⟨⟨rfl, rfl⟩, by decide⟩⟩
theorem witness_FetchCopiesPcAndReadsTheWord :
    ({ State.reset with pc := 0xFFF }).free ∧ ({ State.reset with pc := 0xFFF }).ctrl = .idle ∧
    ({ State.reset with ctrl := .fetchT0, ar := 0xFFF, pc := 0xFFF }).free := ⟨⟨rfl, rfl⟩, rfl, ⟨rfl, rfl⟩⟩
/-- A direct word and an indirect one. -/
theorem witness_FetchComputesTheOperandAddress :
    ({ State.reset with ctrl := .fetchT1, ir := 0x7FFF }).free ∧
    ({ State.reset with ctrl := .fetchT1, ir := 0x8000, mem := [(0, 0xF123)] }).free := ⟨⟨rfl, rfl⟩, ⟨rfl, rfl⟩⟩
/-- A word with an operation and a fall-through word at PC. -/
theorem witness_CycleRunsTheInstructionAtPc :
    ({ State.reset with pc := 0xFFF, mem := [(0xFFF, 0x9014)] }).atInstruction ∧
    opOf (decode (({ State.reset with pc := 0xFFF, mem := [(0xFFF, 0x9014)] }).memRead 0xFFF)) = some .add ∧
    ({ State.reset with mem := [(0, 0x7C00)] }).atInstruction ∧
    opOf (decode (({ State.reset with mem := [(0, 0x7C00)] }).memRead 0)) = none :=
  ⟨⟨⟨rfl, rfl⟩, rfl⟩, by decide, ⟨⟨rfl, rfl⟩, rfl⟩, by decide⟩
/-- Opcodes 0, 1 and 2 at PC, direct and indirect. -/
theorem witness_AndAddLdaRunFromIdle : (wordAtZero 0x2FFF).atInstruction ∧
    opcodeAtZero 0x0000 = 0 ∧ opcodeAtZero 0x8000 = 0 ∧ opcodeAtZero 0x9FFF = 1 ∧ opcodeAtZero 0x2FFF = 2 :=
  ⟨⟨⟨rfl, rfl⟩, rfl⟩, by decide, by decide, by decide, by decide⟩
/-- Opcodes 3, 4, 5 and 6 at PC, direct and indirect. -/
theorem witness_StaBunBsaIszRunFromIdle : (wordAtZero 0x3000).atInstruction ∧ (wordAtZero 0x3000).mem.wf = true ∧
    opcodeAtZero 0x3000 = 3 ∧ opcodeAtZero 0xC020 = 4 ∧ opcodeAtZero 0x5FFF = 5 ∧ opcodeAtZero 0xEFFF = 6 :=
  ⟨⟨⟨rfl, rfl⟩, rfl⟩, by decide, by decide, by decide, by decide, by decide⟩
/-- Listed patterns, and two that are not, at PC. -/
theorem witness_RegisterReferenceRunFromIdle : (wordAtZero 0x7800).atInstruction ∧
    opcodeAtZero 0x7800 = 7 ∧ opcodeAtZero 0xF400 = 7 ∧ opcodeAtZero 0x7200 = 7 ∧ opcodeAtZero 0x7100 = 7 ∧
    opcodeAtZero 0x7001 = 7 ∧ opcodeAtZero 0x7000 = 7 ∧ opcodeAtZero 0xFFFF = 7 :=
  ⟨⟨⟨rfl, rfl⟩, rfl⟩, by decide, by decide, by decide, by decide, by decide, by decide, by decide⟩
/-- A halted state; each value of the open parameter is one of the two. -/
theorem witness_StepWhileHalted :
    ({ State.reset with halted := true }).halted = true ∧ ({ State.reset with halted := true }).nextCommand = .step ∧
    (Config.stepWhenHalted = .ignore ∨ Config.stepWhenHalted = .proceed) :=
  ⟨rfl, rfl, by cases Config.stepWhenHalted <;> simp⟩
theorem witness_StoreIsSeenByTheNextFetch :
    ∃ s : State, s.free ∧ s.mem.wf = true ∧ s.ctrl = .execute .sta ∧ s.ar = s.pc ∧ s.ac = 0x7001 :=
  ⟨{ executing .sta 0x3011 [(0x011, 0x7002)] with ar := 0x011, ac := 0x7001 }, ⟨rfl, rfl⟩, by decide, rfl, rfl, rfl⟩
/-- The inbox hypotheses of the host-command obligations. -/
theorem witness_HostCommands :
    (waiting .halt).inbox = [.halt] ∧ (waiting .resume).inbox = [.resume] ∧ (waiting .reset).inbox = [.reset] ∧
    (waiting (.setAutoRun true)).inbox = [.setAutoRun true] ∧ (waiting (.setSpeed 0)).inbox = [.setSpeed 0] :=
  ⟨rfl, rfl, rfl, rfl, rfl⟩
/-- A map with keys on both sides of 4096. -/
theorem witness_LoadProgramInstallsTheImage :
    (waiting (.loadProgram [(4095, 65536), (4096, 7), (0, 65535)])).inbox =
      [.loadProgram [(4095, 65536), (4096, 7), (0, 65535)]] ∧
    (([(4095, 65536), (4096, 7), (0, 65535)] : Program).map Prod.fst).Nodup := ⟨rfl, by decide⟩
theorem witness_RegisterTools :
    (waiting (.regTool .e .increment)).inbox = [.regTool .e .increment] ∧
    (waiting (.regTool .inpr (.load 0x1FF))).inbox = [.regTool .inpr (.load 0x1FF)] ∧
    (waiting (.regTool .dr (.set 0x12345))).inbox = [.regTool .dr (.set 0x12345)] ∧
    (waiting (.regTool .pc (.selectNext .ret))).inbox = [.regTool .pc (.selectNext .ret)] ∧
    (waiting (.regTool .ac (.xor 0xFF))).inbox = [.regTool .ac (.xor 0xFF)] ∧
    (waiting (.regTool .ac .shiftLeft)).inbox = [.regTool .ac .shiftLeft] ∧
    (waiting (.regTool .ac .shiftRight)).inbox = [.regTool .ac .shiftRight] := ⟨rfl, rfl, rfl, rfl, rfl, rfl, rfl⟩
/-- Each kind of command at a tool that has it and at one that has not. -/
theorem witness_UndefinedToolCommandsAreRefused :
    (waiting (.regTool .i (.set 3))).inbox = [.regTool .i (.set 3)] ∧
    (waiting (.regTool .dr (.or 1))).inbox = [.regTool .dr (.or 1)] ∧
    (waiting (.regTool .ac (.selectNext .branch))).inbox = [.regTool .ac (.selectNext .branch)] := ⟨rfl, rfl, rfl⟩
theorem witness_BusDriveByASecondSourceConflicts :
    let s := waitingWith { Tools.created with bus := ⟨5, some .ar, false⟩ } (.busTool (.drive .pc 7))
    s.inbox = [.busTool (.drive .pc 7)] ∧ BusSource.pc.known = true ∧ s.tools.bus.activeSource = some .ar ∧
    BusSource.ar ≠ BusSource.pc := ⟨rfl, rfl, rfl, by decide⟩
theorem witness_BusDriveAndRelease :
    (waiting (.busTool (.drive .ar 0x12345))).inbox = [.busTool (.drive .ar 0x12345)] ∧ BusSource.ar.known = true ∧
    (waiting .halt).tools.bus.activeSource = none ∧ (waiting (.busTool .release)).inbox = [.busTool .release] :=
  ⟨rfl, rfl, rfl, rfl⟩
theorem witness_BusConflictIsNeverCleared :
    let s := waitingWith { Tools.created with bus := ⟨5, some .ar, true⟩ } (.busTool .release)
    s.tools.bus.conflict = true ∧ ∃ t, step s = .next t := ⟨rfl, _, rfl⟩
theorem witness_MemoryToolCommands :
    Memory.wf (waitingWith { Tools.created with mem := [(7, 1)] } (.memTool (.write 4103 0))).tools.mem = true ∧
    (waiting (.memTool (.read 4095))).inbox = [.memTool (.read 4095)] ∧
    (waiting (.memTool .clearAll)).inbox = [.memTool .clearAll] := ⟨by decide, rfl, rfl⟩
/-- A tool command and a machine command that answer next. -/
theorem witness_ToolsAndMachineAreApart :
    (∃ t, step (waiting (.regTool .ac .clear)) = .next t) ∧ ∃ t, step (waiting .reset) = .next t := ⟨⟨_, rfl⟩, ⟨_, rfl⟩⟩
theorem witness_DefinedCommandsComplete :
    (waiting .step).nextCommand.defined = true ∧ (waiting (.regTool .ar .complement)).nextCommand.defined = false := by
  decide
/-- The ADD of V-M6 answers next and sets E. -/
theorem witness_OnlyAddSetsTheCarry :
    after (step { executing .add 0x1020 [(0x020, 0x0001)] with ac := 0xFFFF }) (fun t => t.e == 1) = true ∧
    (executing .add 0x1020 []).e = 0 := by decide
/-- A BSA changes both PC and a word of a canonical memory. -/
theorem witness_WhatChangesThePcAndMemory :
    after (step (executing .bsa 0x5020 [])) (fun t => t.pc != 0x011 && t.memRead 0x020 != 0) = true ∧
    (executing .bsa 0x5020 []).pc = 0x011 ∧ (executing .bsa 0x5020 []).memRead 0x020 = 0 ∧
    (executing .bsa 0x5020 []).mem.wf = true := by decide
theorem witness_InertRegistersStayZero :
    (executing .hlt 0x7001 []).InertZero ∧ after (step (executing .hlt 0x7001 [])) (fun t => t.tr == 0) = true :=
  ⟨⟨rfl, rfl, rfl, rfl, rfl⟩, by decide⟩
theorem witness_StepIgnoresInertState :
    (executing .add 0x1020 [(0x020, 1)]).nextCommand = .step ∧
    after (step (executing .add 0x1020 [(0x020, 1)])) (fun _ => true) = true := by decide
/-- A state about to perform HLT meets the invariant, and its step halts. -/
theorem witness_HaltedByAStepMeansHlt :
    (executing .hlt 0x7001 [(0x010, 0x7001)]).Inv ∧ (executing .hlt 0x7001 [(0x010, 0x7001)]).nextCommand = .step ∧
    (executing .hlt 0x7001 [(0x010, 0x7001)]).halted = false ∧
    after (step (executing .hlt 0x7001 [(0x010, 0x7001)])) (fun t => t.halted) = true :=
  ⟨⟨by decide, by decide, by decide,
    fun op h => by rw [show op = .hlt from (Ctrl.execute.inj h).symm]; decide, fun _ h => by cases h⟩, rfl, rfl, by decide⟩
/-- A state that meets the invariant with a memory, a driven bus and a command that answers next. -/
theorem witness_StepKeepsTheInvariant :
    ∃ s t : State, s.Inv ∧ s.mem ≠ [] ∧ s.tools.bus.activeSource = some .ar ∧ step s = .next t :=
  ⟨{ waitingWith { Tools.created with bus := ⟨5, some .ar, false⟩, mem := [(7, 1)] } (.busTool (.drive .pc 7)) with
      mem := [(0, 0x2002)] }, _,
    ⟨by decide, by decide, by decide, fun _ h => (by cases h), fun src h => by
      rw [show src = .ar from (Option.some.inj h).symm]; rfl⟩, by decide, rfl, rfl⟩

end Sys2Proof.Tests
end

/-! SUPPORT. What one step can do, as relations with one constructor a case, and from them what a step does to each field:
the control position, E, PC, the memory, the registers nothing writes, and the tools. -/

namespace Sys2Proof.Machine

/-! ### Memory -/

/-- A write leaves the words at the other addresses (R204). -/
theorem Memory.read_write_of_ne {m : Memory} (hm : m.wf = true) {a b : Addr} (hab : b ≠ a) (v : Nat) :
    (m.write a.toNat v).read b.toNat = m.read b.toNat := by
  have hne : b.toNat ≠ a.toNat := fun h => hab (BitVec.eq_of_toNat_eq h)
  simp only [Memory.read, Memory.write, mask_toNat_self, Memory.lookup_put hm, if_neg hne]

@[simp] theorem Memory.read_nil (a : Nat) : Memory.read [] a = 0#16 := rfl

/-! ### The execute step -/

/-- From `s` to `u` only fields that a STEP may write have changed (R561). -/
def State.StepFrame (s u : State) : Prop :=
  u = { s with
    ar := u.ar, pc := u.pc, dr := u.dr, ac := u.ac, ir := u.ir, e := u.e, z := u.z, n := u.n, halted := u.halted
    ctrl := u.ctrl, mem := u.mem }

section Exec
variable {op : Op} {ir : Word} {s u : State}

theorem exec_instrOf_ctrl (h : exec (instrOf op ir) s = .next u) : u.ctrl = .idle := by
  cases op <;> (cases h; rfl)

theorem exec_instrOf_frame (h : exec (instrOf op ir) s = .next u) : s.StepFrame u := by
  cases op <;> (cases h; rfl)

/-- E is cleared by CLE, and by ADD is the carry (R603, R653). -/
theorem exec_instrOf_e (h : exec (instrOf op ir) s = .next u) :
    u.e = s.e ∨ u.e = 0 ∨
      (op = .add ∧ u.e = BitVec.ofBool (aluCarry 16 s.ac.toNat (s.memRead s.ar).toNat)) := by
  cases op with
  | add => cases h; exact .inr (.inr ⟨rfl, rfl⟩)
  | cle => cases h; exact .inr (.inl rfl)
  | _ => cases h; exact .inl rfl

theorem exec_instrOf_pc (h : exec (instrOf op ir) s = .next u) :
    u.pc = s.pc ∨ op = .bun ∨ op = .bsa ∨ op = .isz := by
  cases op with
  | bun | bsa | isz => simp
  | _ => cases h; exact .inl rfl

theorem exec_instrOf_mem (h : exec (instrOf op ir) s = .next u) :
    u.mem = s.mem ∨ ((op = .sta ∨ op = .bsa ∨ op = .isz) ∧ ∃ v, u.mem = s.mem.write s.ar.toNat v) := by
  cases op with
  | sta | bsa | isz => cases h; exact .inr ⟨by simp, _, rfl⟩
  | _ => cases h; exact .inl rfl

end Exec

/-! ### The acting STEP -/

/-- Where a STEP that acts can lead from `s`: the rows of R551, FetchT2 split by what IR decodes to (R556, R657). -/
inductive ControlEffect (s : State) : State → Prop
  | beginFetch (hc : s.ctrl = .idle) : ControlEffect s s.beginFetch
  | fetchWord (hc : s.ctrl = .fetchT0) : ControlEffect s s.fetchWord
  | fetchOperandAddress (hc : s.ctrl = .fetchT1) : ControlEffect s s.fetchOperandAddress
  | decoded (op : Op) (hc : s.ctrl = .fetchT2) (hd : opOf (decode s.ir) = some op) :
      ControlEffect s (s.setCtrl (.execute op))
  | fellThrough (hc : s.ctrl = .fetchT2) (hd : opOf (decode s.ir) = none) : ControlEffect s (s.setCtrl .idle)
  | executed (op : Op) {u : State} (hc : s.ctrl = .execute op) (hx : exec (instrOf op s.ir) s = .next u) :
      ControlEffect s u

section Control
variable {s u : State}

theorem controlEffect_of_controlStep (h : controlStep s = .next u) : ControlEffect s u := by
  obtain ⟨hc, rfl⟩ | ⟨hc, rfl⟩ | ⟨hc, rfl⟩ | ⟨hc, hd⟩ | ⟨op, hc, hx⟩ := controlStep_cases h
  · exact .beginFetch hc
  · exact .fetchWord hc
  · exact .fetchOperandAddress hc
  · obtain ⟨op, ho, he⟩ | ⟨ho, he⟩ := dispatch_cases s <;> cases he.symm.trans hd
    · exact .decoded op hc ho
    · exact .fellThrough hc ho
  · exact .executed op hc hx

theorem ControlEffect.frame (h : ControlEffect s u) : s.StepFrame u := by
  cases h with
  | executed op hc hx => exact exec_instrOf_frame hx
  | _ => rfl

theorem ControlEffect.tools (h : ControlEffect s u) : u.tools = s.tools := by rw [h.frame]

/-- `Execute(op)` is entered from FetchT2 alone, where IR decodes to op. -/
theorem ControlEffect.positionMatchesIr (h : ControlEffect s u) : u.PositionMatchesIr := by
  intro op hop
  cases h with
  | decoded op' _ hd => cases hop; exact hd
  | executed _ _ hx => cases (exec_instrOf_ctrl hx).symm.trans hop
  | _ => cases hop

theorem ControlEffect.e (h : ControlEffect s u) :
    u.e = s.e ∨ u.e = 0 ∨
      (s.ctrl = .execute .add ∧ u.e = BitVec.ofBool (aluCarry 16 s.ac.toNat (s.memRead s.ar).toNat)) := by
  cases h with
  | executed op hc hx => simpa [hc] using exec_instrOf_e hx
  | _ => exact .inl rfl

theorem ControlEffect.pc (h : ControlEffect s u) :
    u.pc = s.pc ∨ s.ctrl = .fetchT0 ∨ s.ctrl = .execute .bun ∨ s.ctrl = .execute .bsa ∨ s.ctrl = .execute .isz := by
  cases h with
  | fetchWord hc => exact .inr (.inl hc)
  | executed op hc hx => simpa [hc] using exec_instrOf_pc hx
  | _ => exact .inl rfl

theorem ControlEffect.mem (h : ControlEffect s u) :
    u.mem = s.mem ∨ ((s.ctrl = .execute .sta ∨ s.ctrl = .execute .bsa ∨ s.ctrl = .execute .isz) ∧
      ∃ v, u.mem = s.mem.write s.ar.toNat v) := by
  cases h with
  | executed op hc hx => simpa [hc] using exec_instrOf_mem hx
  | _ => exact .inl rfl

/-- An acting STEP keeps the invariant: it writes memory by `Memory.write` alone, and no tool. -/
theorem ControlEffect.inv_logStep (h : ControlEffect s u) (hi : s.Inv) : u.logStep.Inv := by
  have htools := h.tools
  have hmem : u.mem.wf = true := by
    obtain hm | ⟨-, v, hm⟩ := h.mem
    · exact hm ▸ hi.mem
    · exact hm ▸ Memory.wf_write hi.mem ..
  exact ⟨hmem, htools ▸ hi.toolMem, keepLastTen_length _, h.positionMatchesIr, fun src hsrc => hi.bus src (htools ▸ hsrc)⟩

theorem ControlEffect.inertZero (h : ControlEffect s u) (hs : s.InertZero) : u.InertZero := by
  rw [h.frame]
  exact hs

end Control

/-! ### The tools -/

theorem Tools.onReg_bus_mem (r : RegName) (f : (w : Nat) → RegTool w → RegTool w) (t : Tools) :
    (t.onReg r f).bus = t.bus ∧ (t.onReg r f).mem = t.mem := by
  cases r <;> exact ⟨rfl, rfl⟩

/-- A command to a register tool reaches neither the bus nor the memory tool. -/
theorem Tools.applyReg_bus_mem (r : RegName) (c : RegCommand) (t : Tools) :
    (t.applyReg r c).bus = t.bus ∧ (t.applyReg r c).mem = t.mem := by
  cases c with
  | load | clear | increment | set => exact Tools.onReg_bus_mem ..
  | _ => exact ⟨rfl, rfl⟩

/-- What a command to a standalone tool can make of the tools (R465, R502 to R505, R206). -/
inductive ToolEffect (a : Tools) : Tools → Prop
  | register (r : RegName) (c : RegCommand) (hd : c.definedFor r = true) : ToolEffect a (a.applyReg r c)
  | drive (source : BusSource) (v : Nat) (hk : source.known = true) :
      ToolEffect a { a with bus := a.bus.drive source v }
  | release : ToolEffect a { a with bus := a.bus.release }
  | memRead : ToolEffect a a
  | memWrite (addr value : Nat) : ToolEffect a { a with mem := a.mem.write addr value }
  | memClear : ToolEffect a { a with mem := a.mem.clearAll }

theorem ToolEffect.mem_wf {a b : Tools} (h : ToolEffect a b) (ha : a.mem.wf = true) : b.mem.wf = true := by
  cases h with
  | register r c => exact (Tools.applyReg_bus_mem r c a).2 ▸ ha
  | memWrite addr value => exact Memory.wf_write ha ..
  | memClear => exact Memory.wf_clearAll a.mem
  | _ => exact ha

/-- After a DRIVE the active source is the one before or the one that drives. -/
theorem Bus.drive_activeSource {source src : BusSource} {v : Nat} {b : Bus}
    (h : (b.drive source v).activeSource = some src) : b.activeSource = some src ∨ src = source := by
  unfold Bus.drive at h
  split at h
  · exact .inr (Option.some.inj h).symm
  · split at h <;> exact .inl h

theorem ToolEffect.bus_known {a b : Tools} (h : ToolEffect a b)
    (ha : ∀ src, a.bus.activeSource = some src → src.known = true) :
    ∀ src, b.bus.activeSource = some src → src.known = true := by
  intro src hsrc
  cases h with
  | register r c => exact ha src ((Tools.applyReg_bus_mem r c a).1 ▸ hsrc)
  | drive source v hk =>
    obtain hold | rfl := Bus.drive_activeSource hsrc
    · exact ha src hold
    · exact hk
  | release => cases hsrc
  | _ => exact ha src hsrc

/-! ### The step -/

/-- Whether a command is one to a standalone tool (R122 to R125), not to the integrated machine. -/
def Command.isTool : Command → Bool
  | .regTool _ _ | .busTool _ | .memTool _ => true
  | .step | .reset | .halt | .resume | .loadProgram _ | .setAutoRun _ | .setSpeed _ => false

/-- Where a step that answers next can lead from `s`. HALT, RESUME, SET_AUTO_RUN and SET_SPEED write only host fields,
`halted` and `ctrl`, and are one case. -/
inductive StepEffect (s : State) : State → Prop
  | acts {u : State} (hc : s.nextCommand = .step) (ha : s.takeCommand.stepActs = true)
      (hu : ControlEffect s.takeCommand u) : StepEffect s u.logStep
  | ignored (hc : s.nextCommand = .step) (ha : s.takeCommand.stepActs = false) : StepEffect s s.takeCommand
  | reset (hc : s.nextCommand = .reset) : StepEffect s (cmdReset s.takeCommand)
  | loadProgram (p : Program) (hc : s.nextCommand = .loadProgram p) : StepEffect s (cmdLoadProgram p s.takeCommand)
  | setting (halted : Bool) (ctrl : Ctrl) (autoRun : Bool) (speedMs : Nat) (hc : s.nextCommand.isTool = false)
      (hctrl : ctrl = .idle ∨ ctrl = s.ctrl) :
      StepEffect s
        { s.takeCommand with halted := halted, ctrl := ctrl, autoRun := autoRun, speedMs := speedMs }.logAny
  | tool {tools : Tools} (hc : s.nextCommand.isTool = true) (ht : ToolEffect s.tools tools) :
      StepEffect s (s.takeCommand.setTools tools)

theorem cmdRegTool_effect {r : RegName} {c : RegCommand} {s t : State} (h : cmdRegTool r c s = .next t) :
    ∃ tools, ToolEffect s.tools tools ∧ t = s.setTools tools := by
  unfold cmdRegTool at h
  split at h
  · cases h; exact ⟨_, .register r c ‹_›, rfl⟩
  · cases h

theorem cmdBusTool_effect {c : BusCommand} {s t : State} (h : cmdBusTool c s = .next t) :
    ∃ tools, ToolEffect s.tools tools ∧ t = s.setTools tools := by
  cases c with
  | drive source v =>
    simp only [cmdBusTool] at h
    split at h
    · cases h; exact ⟨_, .drive source v ‹_›, rfl⟩
    · cases h
  | release => cases h; exact ⟨_, .release, rfl⟩

theorem cmdMemTool_effect (c : MemCommand) (s : State) :
    ∃ tools, ToolEffect s.tools tools ∧ cmdMemTool c s = s.setTools tools := by
  cases c with
  | read addr => exact ⟨_, .memRead, rfl⟩
  | write addr value => exact ⟨_, .memWrite addr value, rfl⟩
  | clearAll => exact ⟨_, .memClear, rfl⟩

section Step
variable {s t : State}

theorem stepEffect_of_step (h : step s = .next t) : StepEffect s t := by
  rw [step_eq] at h
  cases hc : s.nextCommand with rw [hc] at h
  | step =>
    obtain ⟨ha, u, hu, rfl⟩ | ⟨ha, rfl⟩ := cmdStep_cases h
    · exact .acts hc ha (controlEffect_of_controlStep hu)
    · exact .ignored hc ha
  | reset => cases h; exact .reset hc
  | loadProgram p => cases h; exact .loadProgram p hc
  | halt => cases h; exact .setting true .idle s.autoRun s.speedMs (hc ▸ rfl) (.inl rfl)
  | resume => cases h; exact .setting false s.ctrl s.autoRun s.speedMs (hc ▸ rfl) (.inr rfl)
  | setAutoRun enabled => cases h; exact .setting s.halted s.ctrl enabled s.speedMs (hc ▸ rfl) (.inr rfl)
  | setSpeed ms => cases h; exact .setting s.halted s.ctrl s.autoRun ms (hc ▸ rfl) (.inr rfl)
  | regTool r c =>
    obtain ⟨tools, ht, rfl⟩ := cmdRegTool_effect h
    exact .tool (hc ▸ rfl) ht
  | busTool c =>
    obtain ⟨tools, ht, rfl⟩ := cmdBusTool_effect h
    exact .tool (hc ▸ rfl) ht
  | memTool c =>
    obtain ⟨tools, ht, heq⟩ := cmdMemTool_effect c s.takeCommand
    cases h
    exact heq ▸ .tool (hc ▸ rfl) ht

/-- E after a step: as before, cleared, or the carry of an ADD (R110). -/
theorem step_e (h : step s = .next t) :
    t.e = s.e ∨ t.e = 0 ∨ (s.nextCommand = .step ∧ s.ctrl = .execute .add ∧
      t.e = BitVec.ofBool (aluCarry 16 s.ac.toNat (s.memRead s.ar).toNat)) := by
  cases stepEffect_of_step h with
  | acts hc _ hu =>
    obtain hkept | hzero | ⟨hadd, hcarry⟩ := hu.e
    · exact .inl hkept
    · exact .inr (.inl hzero)
    · exact .inr (.inr ⟨hc, hadd, hcarry⟩)
  | reset => exact .inr (.inl rfl)
  | _ => exact .inl rfl

/-- The memory after a step: a program's image, one word written at AR, or as before (R101, R214). -/
theorem step_mem (h : step s = .next t) :
    t.mem = s.mem ∨ (∃ p, s.nextCommand = .loadProgram p) ∨
      (s.nextCommand = .step ∧ (s.ctrl = .execute .sta ∨ s.ctrl = .execute .bsa ∨ s.ctrl = .execute .isz) ∧
        ∃ v, t.mem = s.mem.write s.ar.toNat v) := by
  cases stepEffect_of_step h with
  | acts hc _ hu =>
    obtain hkept | ⟨hop, hwritten⟩ := hu.mem
    · exact .inl hkept
    · exact .inr (.inr ⟨hc, hop, hwritten⟩)
  | loadProgram p hc => exact .inr (.inl ⟨p, hc⟩)
  | _ => exact .inl rfl

theorem step_tools_of_machine_command (h : step s = .next t) (hc : s.nextCommand.isTool = false) : t.tools = s.tools := by
  cases stepEffect_of_step h with
  | acts _ _ hu => exact hu.tools
  | tool htool => cases hc.symm.trans htool
  | _ => rfl

theorem step_snapshot_of_tool_command (h : step s = .next t) (hc : s.nextCommand.isTool = true) :
    t.snapshot = s.snapshot := by
  cases stepEffect_of_step h with
  | tool => rfl
  | setting _ _ _ _ hmachine => cases hmachine.symm.trans hc
  | acts hcmd | ignored hcmd | reset hcmd | loadProgram _ hcmd => rw [hcmd] at hc; cases hc

end Step

/-! ### The obligations -/

/-- Settles O58, by the cases of the step: the acting STEP's by the rows of R551, the tools' by their own commands. -/
theorem stepKeepsTheInvariant : Obligations.StepKeepsTheInvariant := by
  intro s t hi h
  have hi' : s.takeCommand.Inv := ⟨hi.mem, hi.toolMem, hi.log, hi.position, hi.bus⟩
  cases stepEffect_of_step h with
  | acts _ _ hu => exact hu.inv_logStep hi'
  | ignored => exact hi'
  | reset => exact ⟨hi.mem, hi.toolMem, keepLastTen_length _, (fun _ hop => by cases hop), hi.bus⟩
  | loadProgram p => exact ⟨Memory.wf_loadImage .., hi.toolMem, keepLastTen_length _, hi.position, hi.bus⟩
  | setting halted ctrl _ _ _ hctrl =>
    refine ⟨hi.mem, hi.toolMem, keepLastTen_length _, fun op hop => ?_, hi.bus⟩
    obtain rfl | rfl := hctrl
    · cases hop
    · exact hi.position op hop
  | tool _ ht => exact ⟨hi.mem, ht.mem_wf hi.toolMem, hi.log, hi.position, ht.bus_known hi.bus⟩

/-- Settles O49: each command reaches the machine or the tools, never both. -/
theorem toolsAndMachineAreApart : Obligations.ToolsAndMachineAreApart := by
  intro s t h
  have hmachine := step_tools_of_machine_command h
  have htool := step_snapshot_of_tool_command h
  cases hc : s.nextCommand with rw [hc] at hmachine htool
  | regTool | busTool | memTool => exact htool rfl
  | _ => exact hmachine rfl

/-- Settles O51, by what a step can do to E. -/
theorem onlyAddSetsTheCarry : Obligations.OnlyAddSetsTheCarry := by
  intro s t h hs ht
  obtain hkept | hzero | ⟨hcmd, hadd, hcarry⟩ := step_e h
  · exact absurd (ht.symm.trans (hkept.trans hs)) (by decide)
  · exact absurd (ht.symm.trans hzero) (by decide)
  · have htrue : BitVec.ofBool (aluCarry 16 s.ac.toNat (s.memRead s.ar).toNat) = BitVec.ofBool true := hcarry.symm.trans ht
    exact ⟨hcmd, hadd, of_decide_eq_true (BitVec.ofBool_eq_iff_eq.1 htrue)⟩

/-- Settles O52, by the cases of the step and the rows of R551. -/
theorem whatChangesThePc : Obligations.WhatChangesThePc := by
  intro s t h hne
  cases stepEffect_of_step h with
  | acts hc _ hu => exact .inr (.inr ⟨hc, hu.pc.resolve_left hne⟩)
  | reset hc => exact .inl hc
  | loadProgram p hc => exact .inr (.inl ⟨p, hc⟩)
  | _ => exact absurd rfl hne

/-- Settles O53: the memory is as before, a program's image, or one word written at AR, which no other address reads. -/
theorem whatChangesMemory : Obligations.WhatChangesMemory := by
  intro s t a hwf h hne
  obtain hkept | hload | ⟨hcmd, hop, v, hwritten⟩ := step_mem h
  · exact absurd (congrArg (Memory.read · a.toNat) hkept) hne
  · exact .inl hload
  · refine .inr ⟨hcmd, ?_, hop⟩
    by_contra ha
    exact hne ((congrArg (Memory.read · a.toNat) hwritten).trans (Memory.read_write_of_ne hwf ha v))

/-- Settles O54: RESET zeroes the five, and no other command writes them. -/
theorem inertRegistersStayZero : Obligations.InertRegistersStayZero := by
  intro s t hs h
  cases stepEffect_of_step h with
  | acts _ _ hu => exact hu.inertZero hs
  | reset => exact ⟨rfl, rfl, rfl, rfl, rfl⟩
  | _ => exact hs

/-- Settles O1, field by field. -/
theorem resetIsTheCreationState : Obligations.ResetIsTheCreationState :=
  ⟨⟨rfl, rfl, rfl, rfl, rfl, rfl, rfl, rfl, rfl, rfl, rfl⟩, ⟨rfl, rfl, rfl, rfl⟩, Memory.read_nil, rfl, rfl, rfl⟩

/-- Settles O2, tool by tool. -/
theorem toolsStartAtZero : Obligations.ToolsStartAtZero := by
  refine ⟨fun r => ?_, rfl, rfl, Memory.read_nil, rfl, rfl, rfl, rfl, rfl, rfl, rfl, rfl, rfl, rfl, rfl⟩
  cases r <;> rfl

/-- Settles O57: nothing is listed, logged, executing or driven at creation. -/
theorem resetMeetsTheInvariant : Obligations.ResetMeetsTheInvariant where
  mem := State.reset_mem_wf.1
  toolMem := State.reset_mem_wf.2
  log := Nat.zero_le _
  position _ h := by cases h
  bus _ h := by cases h

end Sys2Proof.Machine

/-! SUPPORT. The word memory as its reads: what a read gives after a write, that its reads determine a canonical memory,
that a fetch sees the store before it, and the memory tool's commands. -/

namespace Sys2Proof.Machine

/-! ### Reads and writes -/

/-- A read looks up the address folded to 12 bits (R202, R203). -/
theorem Memory.read_eq_lookup (m : Memory) (a : Nat) : m.read a = m.lookup (a % 4096) := by
  simp only [Memory.read, mask_toNat, Nat.reducePow]

/-- A write lists the word at the address folded to 12 bits (R202, R204). -/
theorem Memory.write_eq_put (m : Memory) (a v : Nat) : m.write a v = m.put (a % 4096) (mask v 16) := by
  simp only [Memory.write, mask_toNat, Nat.reducePow]

@[simp] theorem Memory.read_mod (m : Memory) (a : Nat) : m.read (a % 4096) = m.read a := by
  rw [Memory.read_eq_lookup, Memory.read_eq_lookup, Nat.mod_mod]

/-- Every word after a write, as a number: the value masked to 16 bits at the folded address, any other as before (R204). -/
theorem Memory.toNat_read_write {m : Memory} (hm : m.wf = true) (a v b : Nat) :
    ((m.write a v).read b).toNat = if b % 4096 = a % 4096 then v % 65536 else (m.read b).toNat := by
  rw [Memory.read_eq_lookup, Memory.write_eq_put, Memory.lookup_put hm, Memory.read_eq_lookup]
  split
  · exact mask_toNat v 16
  · rfl

/-- A word written at an address reads back there (R203, R204). -/
theorem State.memRead_memWrite_same {s : State} (hm : s.mem.wf = true) (a : Addr) (v : Word) :
    (s.memWrite a v).memRead a = v := by
  apply BitVec.eq_of_toNat_eq
  rw [State.memRead, State.memWrite, State.setMem_mem, Memory.toNat_read_write hm, if_pos rfl]
  exact Nat.mod_eq_of_lt v.isLt

/-! ### Canonical memories -/

theorem Memory.lookup_cons_self (a : Nat) (w : Word) (m : Memory) : Memory.lookup ((a, w) :: m) a = w := if_pos rfl

/-- The lower bound of a canonical memory rises to its first key. -/
theorem Memory.wfFrom_cons_of_le {lo lo' a : Nat} {w : Word} {m : Memory} (hm : Memory.wfFrom lo ((a, w) :: m) = true)
    (h : lo' ≤ a) : Memory.wfFrom lo' ((a, w) :: m) = true :=
  (Memory.wfFrom_cons ..).2 ⟨h, ((Memory.wfFrom_cons ..).1 hm).2⟩

/-- Canonical memories with the same first key that read alike at a key do so in their tails: up to the first key a tail
reads 0, and above it the first entry is passed over. -/
theorem Memory.lookup_tail_eq {a k : Nat} {w w' : Word} {m m' : Memory} (hm : Memory.wfFrom (a + 1) m = true)
    (hm' : Memory.wfFrom (a + 1) m' = true)
    (heq : Memory.lookup ((a, w) :: m) k = Memory.lookup ((a, w') :: m') k) : Memory.lookup m k = Memory.lookup m' k := by
  obtain hle | hlt := le_or_gt k a
  · rw [Memory.lookup_below hm (Nat.lt_succ_of_le hle), Memory.lookup_below hm' (Nat.lt_succ_of_le hle)]
  · simpa only [Memory.lookup, if_neg hlt.ne] using heq

/-- A key that a canonical memory lists first is not below every key of a memory that reads the same word there. -/
theorem Memory.not_wfFrom_succ_of_lookup_eq {lo a : Nat} {w : Word} {m m' : Memory}
    (hm : Memory.wfFrom lo ((a, w) :: m) = true) (heq : Memory.lookup ((a, w) :: m) a = Memory.lookup m' a) :
    ¬ Memory.wfFrom (a + 1) m' = true := by
  obtain ⟨-, -, hw, -⟩ := (Memory.wfFrom_cons ..).1 hm
  intro hm'
  rw [Memory.lookup_cons_self, Memory.lookup_below hm' a.lt_succ_self] at heq
  exact hw heq

/-- Canonical memories that agree at every word address are the same list: the first keys are equal, since the smaller
would read 0 in the other memory, and then the first words and, above that key, the tails agree. -/
theorem Memory.eq_of_lookup_eq {lo : Nat} {m m' : Memory} (hm : Memory.wfFrom lo m = true)
    (hm' : Memory.wfFrom lo m' = true) (heq : ∀ k < 4096, Memory.lookup m k = Memory.lookup m' k) : m = m' := by
  induction m generalizing lo m' with
  | nil =>
    cases m' with
    | nil => rfl
    | cons c' m' =>
      obtain ⟨-, ha', -, -⟩ := (Memory.wfFrom_cons ..).1 hm'
      exact absurd rfl (Memory.not_wfFrom_succ_of_lookup_eq hm' (heq _ ha').symm)
  | cons c m ih =>
    obtain ⟨a, w⟩ := c
    obtain ⟨-, ha, -, htail⟩ := (Memory.wfFrom_cons ..).1 hm
    have hfirst := Memory.not_wfFrom_succ_of_lookup_eq hm (heq a ha)
    cases m' with
    | nil => exact absurd rfl hfirst
    | cons c' m' =>
      obtain ⟨a', w'⟩ := c'
      obtain ⟨-, ha', -, htail'⟩ := (Memory.wfFrom_cons ..).1 hm'
      obtain hlt | rfl | hgt := lt_trichotomy a a'
      · exact absurd (Memory.wfFrom_cons_of_le hm' hlt) hfirst
      · have hword : w = w' := by simpa only [Memory.lookup_cons_self] using heq a ha
        have hrest : m = m' := ih htail htail' fun k hk => Memory.lookup_tail_eq htail htail' (heq k hk)
        rw [hword, hrest]
      · exact absurd (Memory.wfFrom_cons_of_le hm hgt) (Memory.not_wfFrom_succ_of_lookup_eq hm' (heq a' ha').symm)

/-! ### The step -/

/-- Where STEPs act, `Execute(op)` performs its operation, and the log (R558, R560). -/
theorem step_execute {op : Op} {s u : State} (h : s.free) (hc : s.ctrl = .execute op)
    (hx : exec (instrOf op s.ir) s = .next u) : step s = .next u.logStep := by
  rw [step_of_free h, controlStep, hc]
  exact congrArg (onNext State.logStep) hx

/-- From Idle two STEPs begin the fetch and read the word at PC (R553, R554). -/
theorem runSteps_two_of_idle {s : State} (h : s.free) (hc : s.ctrl = .idle) :
    runSteps 2 s = .next s.beginFetch.logStep.fetchWord.logStep := by
  have hbegun : s.beginFetch.logStep.free := h
  rw [runSteps_succ (step_idle h hc), runSteps_one, step_fetchT0 hbegun rfl]

/-- A waiting command to the memory tool is applied to the tools alone (R206, R708). -/
theorem step_memTool {s : State} {c : MemCommand} {rest : List Command} (h : s.inbox = .memTool c :: rest) :
    step s = .next (cmdMemTool c { s with inbox := rest }) := step_of_cons h

/-! ### The obligations of the memory -/

/-- Settles O9, by the folding of addresses and the law of a read after a write. -/
theorem memoryReadsWhatWasWritten : Obligations.MemoryReadsWhatWasWritten :=
  ⟨Memory.read_nil, fun m a => (m.read_mod a).symm,
    fun _ a v b hm => ⟨Memory.wf_write hm a v, Memory.toNat_read_write hm a v b⟩⟩

/-- Settles O10: below 4096 a read is a lookup, and the lookups determine a canonical memory. -/
theorem canonicalMemoriesAreTheirWords : Obligations.CanonicalMemoriesAreTheirWords := by
  intro m m' hm hm' hread
  refine Memory.eq_of_lookup_eq hm hm' fun k hk => ?_
  have h := hread k
  rwa [Memory.read_eq_lookup, Memory.read_eq_lookup, Nat.mod_eq_of_lt hk] at h

/-- Settles O33, along the three STEPs: the store, the copy of PC into AR, and the fetch from the word just stored. -/
theorem storeIsSeenByTheNextFetch : Obligations.StoreIsSeenByTheNextFetch := by
  intro s hfree hwf hctrl har
  have hstore : step s = .next ((s.memWrite s.ar s.ac).setCtrl .idle).logStep :=
    step_execute hfree hctrl (finish_eq _)
  have hread : (s.memWrite s.ar s.ac).memRead s.pc = s.ac := har ▸ State.memRead_memWrite_same hwf s.ar s.ac
  exact ⟨_, (runSteps_succ hstore 2).trans (runSteps_two_of_idle hfree rfl), rfl, hread, mask_succ s.pc⟩

/-- Settles O48, one clause a command. -/
theorem memoryToolCommands : Obligations.MemoryToolCommands := by
  intro s rest hwf
  refine ⟨fun a h => ⟨step_memTool h, ?_⟩, fun a v h => ⟨_, step_memTool h, Memory.wf_write hwf a v, fun b hb => ?_⟩,
    fun h => ⟨_, step_memTool h, Memory.read_nil⟩⟩
  · rw [Memory.read_mod, memToolReply]
  · rw [Memory.toNat_read_write hwf, Nat.mod_eq_of_lt hb]

end Sys2Proof.Machine

/-! SUPPORT. The encoding: the decoder by the fields of a packed word, so that decode and encode are inverse, and by the
numbers of a word's fields. -/

namespace Sys2Proof

/-! ### Decode and encode -/

/-- The decoder reads of a packed word just the fields that were packed (R301). -/
theorem decode_packWord (ind : Bool) (op : BitVec 3) (a : Addr) :
    decode (packWord ind op a) = if op = 7#3 then decodeRegRef ind a else decodeMemRef op ind a := by
  rw [decode, opcodeOf_packWord, indirectOf_packWord, addressOf_packWord]

theorem Instr.wf_fallThrough_iff (ind : Bool) (p : Addr) : (Instr.fallThrough ind p).wf = true ↔
    p ≠ 0x800#12 ∧ p ≠ 0x400#12 ∧ p ≠ 0x200#12 ∧ p ≠ 0x100#12 ∧ p ≠ 0x001#12 := by
  simp [Instr.wf, isRegRefPattern, and_assoc]

theorem decodeRegRef_of_wf {ind : Bool} {p : Addr} (h : (Instr.fallThrough ind p).wf = true) :
    decodeRegRef ind p = .fallThrough ind p := by
  obtain ⟨hcla, hcle, hcma, hinc, hhlt⟩ := (Instr.wf_fallThrough_iff ind p).1 h
  rw [decodeRegRef, if_neg hcla, if_neg hcle, if_neg hcma, if_neg hinc, if_neg hhlt]

/-- Opcode 7: the five patterns and every other one (R305, R306). -/
theorem wf_and_encode_decodeRegRef (ind : Bool) (a : Addr) :
    (decodeRegRef ind a).wf = true ∧ encode (decodeRegRef ind a) = packWord ind 7#3 a := by
  unfold decodeRegRef
  split_ifs with hcla hcle hcma hinc hhlt
  · exact ⟨rfl, hcla ▸ rfl⟩
  · exact ⟨rfl, hcle ▸ rfl⟩
  · exact ⟨rfl, hcma ▸ rfl⟩
  · exact ⟨rfl, hinc ▸ rfl⟩
  · exact ⟨rfl, hhlt ▸ rfl⟩
  · exact ⟨(Instr.wf_fallThrough_iff ind a).2 ⟨hcla, hcle, hcma, hinc, hhlt⟩, rfl⟩

theorem opcode_eq_six {op : BitVec 3} (h0 : op ≠ 0#3) (h1 : op ≠ 1#3) (h2 : op ≠ 2#3) (h3 : op ≠ 3#3) (h4 : op ≠ 4#3)
    (h5 : op ≠ 5#3) (h7 : op ≠ 7#3) : op = 6#3 := by
  bv_omega

/-- Opcodes 0 to 6, one instruction each (R304). -/
theorem wf_and_encode_decodeMemRef {op : BitVec 3} (h7 : op ≠ 7#3) (ind : Bool) (a : Addr) :
    (decodeMemRef op ind a).wf = true ∧ encode (decodeMemRef op ind a) = packWord ind op a := by
  unfold decodeMemRef
  split_ifs with h0 h1 h2 h3 h4 h5
  · exact ⟨rfl, h0 ▸ rfl⟩
  · exact ⟨rfl, h1 ▸ rfl⟩
  · exact ⟨rfl, h2 ▸ rfl⟩
  · exact ⟨rfl, h3 ▸ rfl⟩
  · exact ⟨rfl, h4 ▸ rfl⟩
  · exact ⟨rfl, h5 ▸ rfl⟩
  · exact ⟨rfl, opcode_eq_six h0 h1 h2 h3 h4 h5 h7 ▸ rfl⟩

/-! ### The numbers of the fields -/

theorem toNat_opcodeOf (w : Word) : (opcodeOf w).toNat = w.toNat / 4096 % 8 := by
  rw [opcodeOf, BitVec.extractLsb'_toNat, Nat.shiftRight_eq_div_pow]

theorem toNat_addressOf (w : Word) : (addressOf w).toNat = w.toNat % 4096 := by
  rw [addressOf, BitVec.extractLsb'_toNat, Nat.shiftRight_zero]

end Sys2Proof

namespace Sys2Proof.Machine

/-- Opcode 7: the address field alone selects the operation (R305, R306, R308). -/
theorem decodeCtrl_of_opcode_seven {w : Word} (h : w.toNat / 4096 % 8 = 7) :
    decodeCtrl w =
      if w.toNat % 4096 = 0x800 then .execute .cla else if w.toNat % 4096 = 0x400 then .execute .cle
      else if w.toNat % 4096 = 0x200 then .execute .cma else if w.toNat % 4096 = 0x100 then .execute .inc
      else if w.toNat % 4096 = 0x001 then .execute .hlt else .idle := by
  simp only [decodeCtrl, decode, decodeRegRef, BitVec.toNat_eq, toNat_opcodeOf, toNat_addressOf,
    BitVec.reduceToNat, if_pos h]
  split_ifs <;> rfl

/-- Any other opcode: the opcode field alone selects the operation, and nothing is left over (R304, R308). -/
theorem decodeCtrl_of_opcode_ne_seven {w : Word} (h : w.toNat / 4096 % 8 ≠ 7) (leftOver : Ctrl) :
    decodeCtrl w =
      if w.toNat / 4096 % 8 = 0 then .execute .and else if w.toNat / 4096 % 8 = 1 then .execute .add
      else if w.toNat / 4096 % 8 = 2 then .execute .lda else if w.toNat / 4096 % 8 = 3 then .execute .sta
      else if w.toNat / 4096 % 8 = 4 then .execute .bun else if w.toNat / 4096 % 8 = 5 then .execute .bsa
      else if w.toNat / 4096 % 8 = 6 then .execute .isz else leftOver := by
  simp only [decodeCtrl, decode, decodeMemRef, BitVec.toNat_eq, toNat_opcodeOf, BitVec.reduceToNat, if_neg h]
  split_ifs
  case neg => omega
  all_goals rfl

/-! ### The obligations of the encoding -/

/-- Settles O5, by the constructors: each packs its own fields, and a fall-through's pattern selects no operation. -/
theorem decodeOfEncode : Obligations.DecodeOfEncode := by
  intro i hwf
  cases i with
  | fallThrough ind p => exact (decode_packWord ind 7#3 p).trans (decodeRegRef_of_wf hwf)
  | _ => exact decode_packWord ..

/-- Settles O6, by the two halves of the decoder and the packing of a word's own fields. -/
theorem encodeOfDecode : Obligations.EncodeOfDecode := by
  intro w
  have hhalf : (decode w).wf = true ∧ encode (decode w) = packWord (indirectOf w) (opcodeOf w) (addressOf w) := by
    rw [decode]
    split_ifs with h7
    · exact h7 ▸ wf_and_encode_decodeRegRef ..
    · exact wf_and_encode_decodeMemRef h7 ..
  rwa [packWord_fields] at hhalf

/-- Settles O4, in opcode 7 by the address field and elsewhere by the opcode field. -/
theorem decodeFollowsTheTables : Obligations.DecodeFollowsTheTables := by
  intro w op a
  by_cases h7 : op = 7
  · rw [decodeCtrl_of_opcode_seven h7, h7]
    rfl
  · exact decodeCtrl_of_opcode_ne_seven h7 _

/-- Settles O3: each word is the encoding of its instruction. -/
theorem listedWordsDecode : Obligations.ListedWordsDecode :=
  ⟨decodeOfEncode (.lda false 0x002) rfl, decodeOfEncode (.add false 0x003) rfl, decodeOfEncode (.add true 0x014) rfl,
    decodeOfEncode (.bun true 0x014) rfl, decodeOfEncode (.isz false 0x015) rfl, decodeOfEncode (.bsa false 0xFFF) rfl,
    decodeOfEncode (.cla false) rfl, decodeOfEncode (.hlt false) rfl, decodeOfEncode (.inc true) rfl,
    decodeOfEncode (.fallThrough false 0x002) rfl⟩

end Sys2Proof.Machine

/-! SUPPORT. The arithmetic utilities over every width: the flags of a masked result as facts about its number, and each
utility's result as a number. -/

namespace Sys2Proof.Machine

/-! ### The flags of a masked result -/

/-- Z is set just where the masked result, as a number, is 0 (R406). -/
theorem ofResult_z_iff {bits : Nat} (r : BitVec bits) : (AluResult.ofResult r).z = true ↔ r.toNat = 0 := by
  rw [ofResult_z, decide_eq_true_iff, BitVec.toNat_eq, BitVec.toNat_zero]

/-- N is set just where the masked result, as a number, reaches its top bit (R406). -/
theorem ofResult_n_iff {bits : Nat} (r : BitVec bits) :
    (AluResult.ofResult r).n = true ↔ 2 ^ (bits - 1) ≤ r.toNat := by
  rw [ofResult_n, ← BitVec.msb_eq_getLsbD_last, BitVec.msb_eq_decide, decide_eq_true_iff]

/-- A result whose flags were computed from it keeps the flag contract of R403 and R406. -/
theorem ofResult_flags {bits : Nat} (v : BitVec bits) :
    let r := AluResult.ofResult v
    (r.z = true ↔ r.result.toNat = 0) ∧ (r.n = true ↔ 2 ^ (bits - 1) ≤ r.result.toNat) :=
  ⟨ofResult_z_iff v, ofResult_n_iff v⟩

/-! ### The results as numbers -/

theorem aluCarry_iff (bits a b : Nat) : aluCarry bits a b = true ↔ 2 ^ bits ≤ a + b := decide_eq_true_iff

theorem toNat_aluAdd_result (bits a b : Nat) : (aluAdd bits a b).result.toNat = (a + b) % 2 ^ bits := mask_toNat ..

theorem toNat_aluAnd_result (bits a b : Nat) : (aluAnd bits a b).result.toNat = (a &&& b) % 2 ^ bits := mask_toNat ..

/-- Complement is XOR with the all-ones value of the width (R404). -/
theorem toNat_aluComplement_result (bits a : Nat) :
    (aluComplement bits a).result.toNat = (2 ^ bits - 1) ^^^ (a % 2 ^ bits) := by
  rw [aluComplement, ofResult_result, BitVec.not_def, BitVec.toNat_xor, BitVec.toNat_allOnes, mask_toNat]

theorem toNat_aluIncrement_result (bits a : Nat) : (aluIncrement bits a).result.toNat = (a + 1) % 2 ^ bits :=
  mask_toNat ..

/-- Complement is an involution on masked operands: its result is within the width, so masking it again is no change. -/
theorem aluComplement_aluComplement_result (bits a : Nat) :
    (aluComplement bits (aluComplement bits a).result.toNat).result = mask a bits := by
  simp only [aluComplement, ofResult_result, mask_toNat_self, BitVec.not_not]

/-! ### The obligations of the arithmetic utilities -/

/-- Settles O7: the sum as a number, and the flags of the masked sum read through it. -/
theorem aluAddLaw : Obligations.AluAddLaw := by
  intro a b bits _
  have hsum := toNat_aluAdd_result bits a b
  obtain ⟨hz, hn⟩ := ofResult_flags (mask (a + b) bits)
  exact ⟨hsum, aluCarry_iff bits a b, hsum ▸ hz, hsum ▸ hn⟩

/-- Settles O8: each result as a number, and the one flag contract for all three utilities. -/
theorem aluUtilityLaws : Obligations.AluUtilityLaws := by
  intro a b bits _
  refine ⟨mask_toNat a bits, toNat_aluAnd_result bits a b, toNat_aluComplement_result bits a,
    toNat_aluIncrement_result bits a, aluComplement_aluComplement_result bits a, ?_⟩
  simp only [List.forall_mem_cons, List.not_mem_nil, false_imp_iff, implies_true, and_true]
  exact ⟨ofResult_flags _, ofResult_flags _, ofResult_flags _⟩

end Sys2Proof.Machine

/-! SUPPORT. The register tools: the steps that apply or refuse their commands, a command as a change of one tool alone,
and the AC tool's shifts, over numbers and along the seventeen bits of AC and E. -/

namespace Sys2Proof.Machine

/-! ### The step -/

section RegisterToolStep
variable {s : State} {r : RegName} {c : RegCommand} {rest : List Command}

/-- A waiting command that its tool has is applied to the tools alone (R453 to R464, R708). -/
theorem step_regTool (h : s.inbox = .regTool r c :: rest) (hd : c.definedFor r = true) :
    step s = .next { s with inbox := rest, tools := s.tools.applyReg r c } :=
  (step_of_cons h).trans (if_pos hd)

/-- A waiting command that its tool does not have is refused (R465). -/
theorem step_regTool_refused (h : s.inbox = .regTool r c :: rest) (hd : c.definedFor r ≠ true) :
    step s = .refused .toolCommandUndefined :=
  (step_of_cons h).trans (if_neg hd)

/-- A command that only the tool `q` has answers next there, and every other tool refuses it (R465). -/
theorem step_regTool_of_sole_owner {q : RegName} (h : s.inbox = .regTool r c :: rest) (hd : c.definedFor r = (r == q)) :
    if r = q then ∃ t, step s = .next t else step s = .refused .toolCommandUndefined := by
  split
  next hr => exact ⟨_, step_regTool h (by rw [hd, hr, beq_self_eq_true])⟩
  next hr => exact step_regTool_refused h (by rwa [hd, ne_eq, beq_iff_eq])

end RegisterToolStep

/-! ### A change of one register tool -/

/-- The register tool of a name. -/
def Tools.regTool (t : Tools) : (r : RegName) → RegTool r.width
  | .ar => t.ar
  | .pc => t.pc
  | .dr => t.dr
  | .ac => t.ac
  | .ir => t.ir
  | .tr => t.tr
  | .sc => t.sc
  | .inpr => t.inpr
  | .outr => t.outr
  | .e => t.e
  | .i => t.i

theorem Tools.valueOf_eq_toNat (t : Tools) (r : RegName) : t.valueOf r = (t.regTool r).value.toNat := by
  cases r <;> rfl

section OnReg
variable (r : RegName) (f : (w : Nat) → RegTool w → RegTool w) (t : Tools)

theorem Tools.valueOf_onReg (r' : RegName) :
    (t.onReg r f).valueOf r' = if r' = r then (f r.width (t.regTool r)).value.toNat else t.valueOf r' := by
  cases r <;> cases r' <;> rfl

theorem Tools.valueOf_onReg_self : (t.onReg r f).valueOf r = (f r.width (t.regTool r)).value.toNat := by
  rw [Tools.valueOf_onReg, if_pos rfl]

theorem Tools.onReg_pcNextSource : (t.onReg r f).pcNextSource = t.pcNextSource := by
  cases r <;> rfl

/-- A change of one register tool leaves the other values, the bus, the memory tool and the selector (R125). -/
theorem Tools.onReg_frame :
    (∀ r', r' ≠ r → (t.onReg r f).valueOf r' = t.valueOf r') ∧
      (t.onReg r f).bus = t.bus ∧ (t.onReg r f).mem = t.mem ∧ (t.onReg r f).pcNextSource = t.pcNextSource := by
  obtain ⟨hbus, hmem⟩ := Tools.onReg_bus_mem r f t
  refine ⟨fun r' hr => ?_, hbus, hmem, Tools.onReg_pcNextSource r f t⟩
  rw [Tools.valueOf_onReg, if_neg hr]

end OnReg

/-- A change of the AC tool leaves the other values. -/
theorem Tools.valueOf_setAc (t : Tools) (ac : RegTool 16) {r : RegName} (hr : r ≠ .ac) :
    Tools.valueOf { t with ac := ac } r = t.valueOf r := by
  cases r with
  | ac => exact absurd rfl hr
  | _ => rfl

/-- A change of the AC and E tools leaves the other values. -/
theorem Tools.valueOf_setAcE (t : Tools) (ac : RegTool 16) (e : RegTool 1) {r : RegName} (hac : r ≠ .ac) (he : r ≠ .e) :
    Tools.valueOf { t with ac := ac, e := e } r = t.valueOf r := by
  cases r with
  | ac => exact absurd rfl hac
  | e => exact absurd rfl he
  | _ => rfl

/-! ### The values the commands leave -/

section Values
variable (r : RegName) (v : Nat) (t : Tools)

theorem Tools.valueOf_load : (t.applyReg r (.load v)).valueOf r = v % 2 ^ r.width :=
  (Tools.valueOf_onReg_self ..).trans (mask_toNat ..)

theorem Tools.valueOf_set : (t.applyReg r (.set v)).valueOf r = v % 2 ^ r.width :=
  (Tools.valueOf_onReg_self ..).trans (mask_toNat ..)

theorem Tools.valueOf_clear : (t.applyReg r .clear).valueOf r = 0 :=
  (Tools.valueOf_onReg_self ..).trans BitVec.toNat_zero

theorem Tools.valueOf_increment : (t.applyReg r .increment).valueOf r = (t.valueOf r + 1) % 2 ^ r.width := by
  rw [Tools.valueOf_eq_toNat t]
  exact (Tools.valueOf_onReg_self ..).trans (mask_toNat ..)

theorem Tools.valueOf_pcSelectNext (n : NextSource) : (t.pcSelectNext n).valueOf r = t.valueOf r := by
  cases r <;> rfl

theorem Tools.valueOf_acAnd : (t.acAnd v).valueOf .ac = t.valueOf .ac &&& (v % 65536) := BitVec.toNat_and ..

theorem Tools.valueOf_acOr : (t.acOr v).valueOf .ac = t.valueOf .ac ||| (v % 65536) := BitVec.toNat_or ..

theorem Tools.valueOf_acXor : (t.acXor v).valueOf .ac = t.valueOf .ac ^^^ (v % 65536) := BitVec.toNat_xor ..

theorem Tools.valueOf_acComplement : t.acComplement.valueOf .ac = 65535 - t.valueOf .ac := by
  rw [Tools.acComplement, aluComplement_eq]
  exact BitVec.toNat_not

end Values

/-! ### The shifts over numbers -/

/-- A shift to the left with a number put into the vacated bits. -/
theorem toNat_shiftLeft_or {k : Nat} {a b : Word} (hb : b.toNat < 2 ^ k) :
    (a <<< k ||| b).toNat = (a.toNat * 2 ^ k + b.toNat) % 65536 := by
  calc (a <<< k ||| b).toNat
      = (a.toNat <<< k ||| b.toNat) % 65536 := by
        rw [BitVec.toNat_or, BitVec.toNat_shiftLeft, Nat.or_mod_two_pow (n := 16), Nat.mod_eq_of_lt b.isLt]
    _ = (a.toNat * 2 ^ k + b.toNat) % 65536 := by rw [← Nat.shiftLeft_add_eq_or_of_lt hb, Nat.shiftLeft_eq]

section Shifts
variable (t : Tools)

theorem Tools.valueOf_ac_lt : t.valueOf .ac < 65536 := t.ac.value.isLt

theorem Tools.valueOf_e_lt : t.valueOf .e < 2 := t.e.value.isLt

/-- The E tool's value as a word. -/
theorem Tools.toNat_setWidth_e : (t.e.value.setWidth 16).toNat = t.valueOf .e := BitVec.toNat_setWidth_of_le (by decide)

/-- SHIFT_LEFT: E enters AC at bit 0, and bit 15 leaves into E (R462). -/
theorem Tools.acShiftLeft_values :
    t.acShiftLeft.valueOf .ac = (2 * t.valueOf .ac + t.valueOf .e) % 65536 ∧
      t.acShiftLeft.valueOf .e = t.valueOf .ac / 32768 := by
  have hac := t.valueOf_ac_lt
  have he := t.toNat_setWidth_e
  constructor
  · rw [← he, Nat.mul_comm]
    exact toNat_shiftLeft_or (k := 1) (he ▸ t.valueOf_e_lt)
  · calc t.acShiftLeft.valueOf .e
        = t.valueOf .ac >>> 15 % 2 := BitVec.extractLsb'_toNat ..
      _ = t.valueOf .ac / 32768 := by rw [Nat.shiftRight_eq_div_pow]; omega

/-- SHIFT_RIGHT: E enters AC at bit 15, and bit 0 leaves into E (R463). -/
theorem Tools.acShiftRight_values :
    t.acShiftRight.valueOf .ac = 32768 * t.valueOf .e + t.valueOf .ac / 2 ∧
      t.acShiftRight.valueOf .e = t.valueOf .ac % 2 := by
  have hac := t.valueOf_ac_lt
  have he := t.valueOf_e_lt
  have hhalf : (t.ac.value >>> 1).toNat = t.valueOf .ac / 2 := BitVec.toNat_ushiftRight ..
  refine ⟨?_, BitVec.extractLsb'_toNat ..⟩
  calc t.acShiftRight.valueOf .ac
      = ((t.e.value.setWidth 16).toNat * 2 ^ 15 + (t.ac.value >>> 1).toNat) % 65536 := toNat_shiftLeft_or (by omega)
    _ = 32768 * t.valueOf .e + t.valueOf .ac / 2 := by rw [t.toNat_setWidth_e, hhalf]; omega

/-- A right shift takes back what a left shift did. -/
theorem Tools.acShiftRight_acShiftLeft :
    t.acShiftLeft.acShiftRight.ac.value = t.ac.value ∧ t.acShiftLeft.acShiftRight.e.value = t.e.value := by
  have hac := t.valueOf_ac_lt
  have he := t.valueOf_e_lt
  obtain ⟨hlac, hle⟩ := t.acShiftLeft_values
  obtain ⟨hrac, hre⟩ := t.acShiftLeft.acShiftRight_values
  have hacBack : t.acShiftLeft.acShiftRight.valueOf .ac = t.valueOf .ac := by omega
  have heBack : t.acShiftLeft.acShiftRight.valueOf .e = t.valueOf .e := by omega
  exact ⟨BitVec.eq_of_toNat_eq hacBack, BitVec.eq_of_toNat_eq heBack⟩

/-! ### The seventeen bits a shift circulates -/

/-- Bit `i`, counted around the circle of AC's bits 0 to 15 and then E. -/
def Tools.circleBit (t : Tools) (i : Nat) : Bool :=
  if i % 17 < 16 then t.ac.value.getLsbD (i % 17) else t.e.value.getLsbD 0

theorem Tools.circleBit_of_lt {i : Nat} (hi : i < 16) : t.circleBit i = t.ac.value.getLsbD i := by
  rw [Tools.circleBit, Nat.mod_eq_of_lt (by omega), if_pos hi]

theorem Tools.circleBit_sixteen : t.circleBit 16 = t.e.value.getLsbD 0 := rfl

theorem Tools.circleBit_mod (i : Nat) : t.circleBit (i % 17) = t.circleBit i := by
  rw [Tools.circleBit, Tools.circleBit, Nat.mod_mod]

theorem Tools.acShiftLeft_ac_getLsbD_zero : t.acShiftLeft.ac.value.getLsbD 0 = t.e.value.getLsbD 0 := by
  simp [Tools.acShiftLeft]

theorem Tools.acShiftLeft_ac_getLsbD_succ {i : Nat} (hi : i < 15) :
    t.acShiftLeft.ac.value.getLsbD (i + 1) = t.ac.value.getLsbD i := by
  have hin : i + 1 < 16 := by omega
  rw [BitVec.getLsbD_eq_getElem (i := i) (by omega)]
  simp [Tools.acShiftLeft, hin]

theorem Tools.acShiftLeft_e_getLsbD_zero : t.acShiftLeft.e.value.getLsbD 0 = t.ac.value.getLsbD 15 := by
  simp [Tools.acShiftLeft]

/-- SHIFT_LEFT moves every bit one place around the circle: within AC, from AC into E, from E into AC (R462). -/
theorem Tools.circleBit_acShiftLeft (i : Nat) : t.acShiftLeft.circleBit (i + 1) = t.circleBit i := by
  rw [← Tools.circleBit_mod _ (i + 1), ← Tools.circleBit_mod t i]
  have hmod : i % 17 < 17 := Nat.mod_lt i (by decide)
  obtain hlt | heq | heq : i % 17 < 15 ∨ i % 17 = 15 ∨ i % 17 = 16 := by omega
  · have hsucc : (i + 1) % 17 = i % 17 + 1 := by omega
    rw [hsucc, Tools.circleBit_of_lt _ (by omega), Tools.circleBit_of_lt _ (by omega), t.acShiftLeft_ac_getLsbD_succ hlt]
  · have hsucc : (i + 1) % 17 = 16 := by omega
    rw [hsucc, heq, Tools.circleBit_sixteen, t.acShiftLeft_e_getLsbD_zero, t.circleBit_of_lt (by decide)]
  · have hsucc : (i + 1) % 17 = 0 := by omega
    rw [hsucc, heq, Tools.circleBit_of_lt _ (by decide), t.acShiftLeft_ac_getLsbD_zero, Tools.circleBit_sixteen]

/-- So `k` of them move every bit `k` places. -/
theorem Tools.circleBit_acShiftLeft_iterate (k i : Nat) : (Tools.acShiftLeft^[k] t).circleBit (i + k) = t.circleBit i := by
  induction k with
  | zero => rfl
  | succ k ih => rw [Function.iterate_succ_apply', ← Nat.add_assoc, Tools.circleBit_acShiftLeft, ih]

/-- The circle holds all of AC and E. -/
theorem Tools.eq_of_circleBit_eq {t u : Tools} (h : ∀ i, t.circleBit i = u.circleBit i) :
    t.ac.value = u.ac.value ∧ t.e.value = u.e.value := by
  constructor <;> refine BitVec.eq_of_getLsbD_eq fun i hi => ?_
  · rw [← t.circleBit_of_lt hi, ← u.circleBit_of_lt hi, h]
  · obtain rfl : i = 0 := Nat.lt_one_iff.1 hi
    exact h 16

end Shifts

/-! ### The obligations of the register tools -/

/-- Settles O42: the shifts over numbers, and every tool but AC's and E's untouched. -/
theorem acToolShifts : Obligations.AcToolShifts := by
  intro s rest
  obtain ⟨hlac, hle⟩ := s.tools.acShiftLeft_values
  obtain ⟨hrac, hre⟩ := s.tools.acShiftRight_values
  exact ⟨fun h => ⟨_, step_regTool h rfl, hlac, hle, fun _ => Tools.valueOf_setAcE s.tools _ _, rfl, rfl, rfl⟩,
    fun h => ⟨_, step_regTool h rfl, hrac, hre, fun _ => Tools.valueOf_setAcE s.tools _ _, rfl, rfl, rfl⟩⟩

/-- Settles O43: seventeen places around a circle of seventeen bits bring every bit home. -/
theorem shiftsCirculate : Obligations.ShiftsCirculate := by
  intro t
  refine ⟨Tools.eq_of_circleBit_eq fun i => ?_, t.acShiftRight_acShiftLeft⟩
  calc (Tools.acShiftLeft^[17] t).circleBit i
      = (Tools.acShiftLeft^[17] t).circleBit (i + 17) := by
        rw [← Tools.circleBit_mod _ (i + 17), Nat.add_mod_right, Tools.circleBit_mod]
    _ = t.circleBit i := t.circleBit_acShiftLeft_iterate 17 i

/-- Settles O39, by the kind of the command: each changes its own tool alone. -/
theorem registerToolLoadClearIncrement : Obligations.RegisterToolLoadClearIncrement := by
  intro s r c rest h hc
  obtain rfl | rfl | ⟨v, rfl⟩ := hc
  · exact ⟨_, step_regTool h rfl, nofun, fun _ => Tools.valueOf_clear .., nofun, Tools.onReg_frame ..⟩
  · exact ⟨_, step_regTool h rfl, nofun, nofun, fun _ => Tools.valueOf_increment .., Tools.onReg_frame ..⟩
  · refine ⟨_, step_regTool h rfl, fun v' hv => ?_, nofun, nofun, Tools.onReg_frame ..⟩
    cases hv
    exact Tools.valueOf_load ..

/-- Settles O40: SET changes its own tool alone, SELECT_NEXT no value. -/
theorem setAndSelectNext : Obligations.SetAndSelectNext :=
  ⟨fun _ _ _ _ h => ⟨_, step_regTool h rfl, Tools.valueOf_set .., Tools.onReg_frame ..⟩,
    fun _ n _ h => ⟨_, step_regTool h rfl, rfl, fun r => Tools.valueOf_pcSelectNext r _ n, rfl, rfl⟩⟩

/-- Settles O41, by the operation: each changes the AC tool alone. -/
theorem acToolLogic : Obligations.AcToolLogic := by
  intro s c v rest h hc
  obtain rfl | rfl | rfl | rfl := hc
  · exact ⟨_, step_regTool h rfl, ⟨fun _ => Tools.valueOf_acAnd .., nofun, nofun, nofun⟩,
      fun _ => Tools.valueOf_setAc s.tools _, rfl, rfl, rfl⟩
  · exact ⟨_, step_regTool h rfl, ⟨nofun, fun _ => Tools.valueOf_acOr .., nofun, nofun⟩,
      fun _ => Tools.valueOf_setAc s.tools _, rfl, rfl, rfl⟩
  · exact ⟨_, step_regTool h rfl, ⟨nofun, nofun, fun _ => Tools.valueOf_acXor .., nofun⟩,
      fun _ => Tools.valueOf_setAc s.tools _, rfl, rfl, rfl⟩
  · exact ⟨_, step_regTool h rfl, ⟨nofun, nofun, nofun, fun _ => Tools.valueOf_acComplement ..⟩,
      fun _ => Tools.valueOf_setAc s.tools _, rfl, rfl, rfl⟩

/-- Settles O44, by the groups of commands: those every tool has, AC's own, and PC's own. -/
theorem undefinedToolCommandsAreRefused : Obligations.UndefinedToolCommandsAreRefused := by
  intro s r c rest h
  refine ⟨fun hc => ⟨_, step_regTool h ?_⟩, fun hc => step_regTool_of_sole_owner h ?_, fun n hc =>
    step_regTool_of_sole_owner h ?_⟩
  · obtain rfl | rfl | ⟨v, rfl | rfl⟩ := hc <;> rfl
  · obtain rfl | rfl | rfl | ⟨v, rfl | rfl | rfl⟩ := hc <;> rfl
  · exact hc ▸ rfl

end Sys2Proof.Machine

/-! SUPPORT. The bus tool: what a DRIVE leaves of the bus, its two commands as steps, and that no command clears a
conflict. -/

namespace Sys2Proof.Machine

/-! ### The bus -/

section Bus
variable {source active : BusSource} {b : Bus}

/-- A DRIVE on an undriven bus, or by the source that drives it, is not in conflict (R502, R504). -/
theorem Bus.drive_of_none_or_self (v : Nat) (h : b.activeSource = none ∨ b.activeSource = some source) :
    b.drive source v = ⟨mask v 16, some source, b.conflict⟩ := by
  unfold Bus.drive
  obtain hfree | hown := h
  · rw [hfree]
  · simp only [hown, if_true]

/-- A DRIVE while another source is active is in conflict and drives nothing (R503). -/
theorem Bus.drive_of_ne (v : Nat) (h : b.activeSource = some active) (hne : active ≠ source) :
    b.drive source v = { b with conflict := true } := by
  simp only [Bus.drive, h, if_neg hne]

/-- A DRIVE never clears a conflict: each of its cases keeps it or sets it (R506). -/
theorem Bus.drive_conflict (source : BusSource) (v : Nat) (h : b.conflict = true) : (b.drive source v).conflict = true := by
  cases ha : b.activeSource with
  | none => rwa [Bus.drive_of_none_or_self v (.inl ha)]
  | some active =>
    obtain rfl | hne := eq_or_ne active source
    · rwa [Bus.drive_of_none_or_self v (.inr ha)]
    · rw [Bus.drive_of_ne v ha hne]

end Bus

/-- No command to a standalone tool clears a conflict (R125, R506). -/
theorem ToolEffect.bus_conflict {a b : Tools} (h : ToolEffect a b) (ha : a.bus.conflict = true) :
    b.bus.conflict = true := by
  cases h with
  | register r c => exact (Tools.applyReg_bus_mem r c a).1 ▸ ha
  | drive source v => exact Bus.drive_conflict source v ha
  | _ => exact ha

/-! ### The step -/

section BusToolStep
variable {s : State} {source : BusSource} {v : Nat} {rest : List Command}

/-- A waiting DRIVE by a source of the bus is applied to the bus alone (R502 to R504, R708). -/
theorem step_busTool_drive (h : s.inbox = .busTool (.drive source v) :: rest) (hk : source.known = true) :
    step s = .next { s with inbox := rest, tools := { s.tools with bus := s.tools.bus.drive source v } } :=
  (step_of_cons h).trans (if_pos hk)

/-- A waiting RELEASE is applied to the bus alone (R505, R708). -/
theorem step_busTool_release (h : s.inbox = .busTool .release :: rest) :
    step s = .next { s with inbox := rest, tools := { s.tools with bus := s.tools.bus.release } } :=
  step_of_cons h

end BusToolStep

/-! ### The obligations of the bus -/

/-- Settles O47, by the cases of the step: only a tool's command reaches the bus, and none of those clears a conflict. -/
theorem busConflictIsNeverCleared : Obligations.BusConflictIsNeverCleared := by
  intro s t h hconflict
  cases stepEffect_of_step h with
  | acts _ _ hu => exact (congrArg (·.bus.conflict) hu.tools).trans hconflict
  | tool _ ht => exact ht.bus_conflict hconflict
  | _ => exact hconflict

/-- Settles O45, by what a DRIVE leaves of a bus that another source drives. -/
theorem busDriveByASecondSourceConflicts : Obligations.BusDriveByASecondSourceConflicts := by
  intro s src active v rest h hk hactive hne
  rw [step_busTool_drive h hk, Bus.drive_of_ne v hactive hne]

/-- Settles O46, by what each of the two commands leaves of the bus. -/
theorem busDriveAndRelease : Obligations.BusDriveAndRelease := by
  rintro s rest b rfl
  refine ⟨fun src v h hk hfree => ⟨mask v 16, mask_toNat v 16, ?_⟩, step_busTool_release⟩
  rw [step_busTool_drive h hk, Bus.drive_of_none_or_self v hfree]

end Sys2Proof.Machine

/-! SUPPORT. The control unit: that a STEP acts alike on states that differ only in the fields it ignores, what a STEP
does while halted, and the STEPs of an instruction's cycle from Idle. -/

namespace Sys2Proof.Machine

/-! ### The rows of R551 -/

section Rows
variable {s u : State}

theorem controlStep_fetchT2_of_op {op : Op} (hc : s.ctrl = .fetchT2) (hd : opOf (decode s.ir) = some op) :
    controlStep s = .next (s.setCtrl (.execute op)) := by
  simp only [controlStep, State.dispatch, hc, hd]

theorem controlStep_fetchT2_of_no_op (hc : s.ctrl = .fetchT2) (hd : opOf (decode s.ir) = none) :
    controlStep s = exec (decode s.ir) s := by
  simp only [controlStep, State.dispatch, hc, hd]

theorem controlStep_execute {op : Op} (hc : s.ctrl = .execute op) : controlStep s = exec (instrOf op s.ir) s := by
  simp only [controlStep, hc]

/-- The rows of R551 are what an acting STEP does: the converse of `controlEffect_of_controlStep`. -/
theorem ControlEffect.controlStep (h : ControlEffect s u) : controlStep s = .next u := by
  cases h with
  | beginFetch hc | fetchWord hc | fetchOperandAddress hc => simp only [Machine.controlStep, hc]
  | decoded op hc hd => exact controlStep_fetchT2_of_op hc hd
  | fellThrough hc hd =>
    obtain ⟨op, hop, -⟩ | ⟨-, hidle⟩ := dispatch_cases s
    · cases hd.symm.trans hop
    · simp only [Machine.controlStep, hc, hidle]
  | executed op hc hx => exact (controlStep_execute hc).trans hx

theorem cmdStep_of_stepActs (h : s.stepActs = true) : cmdStep s = onNext State.logStep (controlStep s) := if_pos h

theorem cmdStep_of_not_stepActs (h : s.stepActs = false) : cmdStep s = .next s := if_neg (Bool.eq_false_iff.1 h)

theorem step_of_nextCommand_step (h : s.nextCommand = .step) : step s = cmdStep s.takeCommand := by
  rw [step_eq, h, applyCommand]

end Rows

/-! ### The fields a STEP ignores -/

/-- Values for the fields that a STEP does not read: it writes E, Z and N, and leaves the other seven (R561). -/
structure Ignored where
  tr      : Word
  sc      : BitVec 4
  inpr    : BitVec 8
  outr    : BitVec 8
  i       : BitVec 1
  e       : BitVec 1
  z       : Bool
  n       : Bool
  autoRun : Bool
  speedMs : Nat

/-- The state with these values in the ignored fields. -/
def State.withIgnored (s : State) (x : Ignored) : State :=
  { s with
    tr := x.tr, sc := x.sc, inpr := x.inpr, outr := x.outr, i := x.i, e := x.e, z := x.z, n := x.n
    autoRun := x.autoRun, speedMs := x.speedMs }

/-- Where a STEP leads from `s` to `u`, from `s.withIgnored x` it leads to `u'`: the two differ in the ignored fields
alone, seven of these are as in `x`, and each flag is kept by both STEPs or written alike. -/
structure Ignored.StepsAlike (x : Ignored) (s u u' : State) : Prop where
  rest : u' = u.withIgnored { x with e := u'.e, z := u'.z, n := u'.n }
  e    : u'.e = u.e ∨ (u'.e = x.e ∧ u.e = s.e)
  z    : u'.z = u.z ∨ (u'.z = x.z ∧ u.z = s.z)
  n    : u'.n = u.n ∨ (u'.n = x.n ∧ u.n = s.n)

section StepsAlike
variable {x : Ignored} {s t u u' : State}

/-- A STEP that writes no flag leaves all ignored fields as they were. -/
theorem Ignored.StepsAlike.of_flags_kept (he : u.e = s.e) (hz : u.z = s.z) (hn : u.n = s.n) :
    x.StepsAlike s u (u.withIgnored x) :=
  ⟨rfl, .inr ⟨rfl, he⟩, .inr ⟨rfl, hz⟩, .inr ⟨rfl, hn⟩⟩

/-- The log is none of the ignored fields, and what it appends depends on none. -/
theorem Ignored.StepsAlike.logStep (h : x.StepsAlike s u u') : x.StepsAlike s u.logStep u'.logStep :=
  ⟨congrArg State.logStep h.rest, h.e, h.z, h.n⟩

/-- ADD writes E, Z and N, AND, LDA and INC write Z and N, CLE writes E, each from fields that are not ignored (R602 to
R604, R653, R655). -/
theorem exec_instrOf_withIgnored {op : Op} {ir : Word} (x : Ignored) (h : exec (instrOf op ir) s = .next u) :
    ∃ u', exec (instrOf op ir) (s.withIgnored x) = .next u' ∧ x.StepsAlike s u u' := by
  cases op with
  | add => cases h; exact ⟨_, rfl, rfl, .inl rfl, .inl rfl, .inl rfl⟩
  | and | lda | inc => cases h; exact ⟨_, rfl, rfl, .inr ⟨rfl, rfl⟩, .inl rfl, .inl rfl⟩
  | cle => cases h; exact ⟨_, rfl, rfl, .inl rfl, .inr ⟨rfl, rfl⟩, .inr ⟨rfl, rfl⟩⟩
  | _ => cases h; exact ⟨_, rfl, Ignored.StepsAlike.of_flags_kept rfl rfl rfl⟩

/-- Each row of R551 is taken, and leads to the like state, whatever the ignored fields hold. -/
theorem ControlEffect.withIgnored (x : Ignored) (h : ControlEffect s u) :
    ∃ u', ControlEffect (s.withIgnored x) u' ∧ x.StepsAlike s u u' := by
  cases h with
  | beginFetch hc => exact ⟨_, .beginFetch hc, .of_flags_kept rfl rfl rfl⟩
  | fetchWord hc => exact ⟨_, .fetchWord hc, .of_flags_kept rfl rfl rfl⟩
  | fetchOperandAddress hc => exact ⟨_, .fetchOperandAddress hc, .of_flags_kept rfl rfl rfl⟩
  | decoded op hc hd => exact ⟨_, .decoded op hc hd, .of_flags_kept rfl rfl rfl⟩
  | fellThrough hc hd => exact ⟨_, .fellThrough hc hd, .of_flags_kept rfl rfl rfl⟩
  | executed op hc hx =>
    obtain ⟨u', hx', halike⟩ := exec_instrOf_withIgnored x hx
    exact ⟨u', .executed op hc hx', halike⟩

/-- Whether a STEP acts, and what it then does, does not depend on the ignored fields (R561). -/
theorem cmdStep_withIgnored (x : Ignored) (h : cmdStep s = .next t) :
    ∃ t', cmdStep (s.withIgnored x) = .next t' ∧ x.StepsAlike s t t' := by
  obtain ⟨hacts, u, hu, rfl⟩ | ⟨hidle, rfl⟩ := cmdStep_cases h
  · obtain ⟨u', hu', halike⟩ := (controlEffect_of_controlStep hu).withIgnored x
    have hacts' : (s.withIgnored x).stepActs = true := hacts
    exact ⟨u'.logStep, by rw [cmdStep_of_stepActs hacts', hu'.controlStep, onNext_next], halike.logStep⟩
  · exact ⟨t.withIgnored x, cmdStep_of_not_stepActs hidle, Ignored.StepsAlike.of_flags_kept rfl rfl rfl⟩

/-- A step whose command is STEP leads from either state to the like state (R561, R708). -/
theorem step_withIgnored (x : Ignored) (hc : s.nextCommand = .step) (h : step s = .next t) :
    ∃ t', step (s.withIgnored x) = .next t' ∧ x.StepsAlike s t t' := by
  have hc' : (s.withIgnored x).nextCommand = .step := hc
  rw [step_of_nextCommand_step hc] at h
  obtain ⟨t', ht', halike⟩ := cmdStep_withIgnored x h
  exact ⟨t', (step_of_nextCommand_step hc').trans ht', halike.rest, halike.e, halike.z, halike.n⟩

end StepsAlike

/-! ### STEP while halted -/

/-- No instruction reads `halted`, and none clears it. -/
theorem exec_setHalted_true (i : Instr) (s : State) :
    exec i (s.setHalted true) = onNext (·.setHalted true) (exec i s) := by
  cases i <;> rfl

/-- No row of R551 reads `halted`, and none clears it. -/
theorem controlStep_setHalted_true (s : State) :
    controlStep (s.setHalted true) = onNext (·.setHalted true) (controlStep s) := by
  have hctrl : (s.setHalted true).ctrl = s.ctrl := rfl
  cases hc : s.ctrl with rw [hc] at hctrl
  | idle | fetchT0 | fetchT1 => simp only [controlStep, hctrl, hc]; rfl
  | fetchT2 =>
    cases hd : opOf (decode s.ir) with
    | some op => rw [controlStep_fetchT2_of_op hctrl hd, controlStep_fetchT2_of_op hc hd]; rfl
    | none => rw [controlStep_fetchT2_of_no_op hctrl hd, controlStep_fetchT2_of_no_op hc hd, exec_setHalted_true]; rfl
  | execute op => rw [controlStep_execute hctrl, controlStep_execute hc, exec_setHalted_true]; rfl

/-- The log neither reads nor writes `halted`. -/
theorem onNext_logStep_setHalted (b : Bool) (o : Host.Outcome State Fault Refusal) :
    onNext State.logStep (onNext (·.setHalted b) o) = onNext (·.setHalted b) (onNext State.logStep o) := by
  cases o <;> rfl

/-! ### The operand address -/

theorem indirectOf_eq_msb (w : Word) : indirectOf w = w.msb := (BitVec.msb_eq_getLsbD_last w).symm

theorem addressOf_eq_setWidth (w : Word) : addressOf w = w.setWidth 12 :=
  (BitVec.setWidth_eq_extractLsb' (by decide)).symm

/-- Fetch T1's address by the bits of the word alone (R301, R555). -/
theorem operandAddress_eq (m : Memory) (w : Word) :
    operandAddress m w = if w.msb then (m.read (w.toNat % 4096)).setWidth 12 else w.setWidth 12 := by
  rw [operandAddress, indirectOf_eq_msb, indirectAddress, mask_narrow, toNat_addressOf, directAddress,
    addressOf_eq_setWidth]

/-- Fetch T1's address as a number (R301, R555). -/
theorem toNat_operandAddress (m : Memory) (w : Word) :
    (operandAddress m w).toNat =
      if 32768 ≤ w.toNat then (m.read (w.toNat % 4096)).toNat % 4096 else w.toNat % 4096 := by
  rw [operandAddress_eq, BitVec.msb_eq_decide]
  simp only [decide_eq_true_eq, apply_ite BitVec.toNat, BitVec.toNat_setWidth]

/-! ### The cycle of an instruction -/

section Cycle
variable {s : State} {op : Op}

theorem step_fetchT2_of_op (h : s.free) (hc : s.ctrl = .fetchT2) (hd : opOf (decode s.ir) = some op) :
    step s = .next (s.setCtrl (.execute op)).logStep := by
  rw [step_of_free h, controlStep_fetchT2_of_op hc hd, onNext_next]

theorem step_fetchT2_of_no_op (h : s.free) (hc : s.ctrl = .fetchT2) (hd : opOf (decode s.ir) = none) :
    step s = onNext State.logStep (exec (decode s.ir) s) := by
  rw [step_of_free h, controlStep_fetchT2_of_no_op hc hd]

/-- In `Execute(op)`, with IR decoding to op, a step performs the decoded instruction (R558). -/
theorem step_execute_decoded (h : s.free) (hc : s.ctrl = .execute op) (hd : opOf (decode s.ir) = some op) :
    step s = onNext State.logStep (exec (decode s.ir) s) := by
  rw [step_of_free h, controlStep_execute hc, instrOf_decode hd]

/-- Where three STEPs from Idle leave the machine: the fetch done, the word not yet decoded (R553 to R555). -/
def State.afterFetch (s : State) : State := s.beginFetch.logStep.fetchWord.logStep.fetchOperandAddress.logStep

/-- The fetch writes AR, IR, PC, `ctrl`, the log and its counter (R553 to R555). -/
theorem State.afterFetch_eq (s : State) : ∃ l c, s.afterFetch =
    { s with
      ar := operandAddress s.mem (s.memRead s.pc), ir := s.memRead s.pc, pc := s.pc + 1, ctrl := .fetchT2
      log := l, freeCount := c } := by
  rw [← mask_succ]
  exact ⟨_, _, rfl⟩

/-- From Idle a run begins with the three STEPs of the fetch. -/
theorem runSteps_afterFetch (h : s.atInstruction) (k : Nat) : runSteps (k + 3) s = runSteps k s.afterFetch := by
  obtain ⟨hfree, hc⟩ := h
  have hbegun : s.beginFetch.logStep.free := hfree
  have hread : s.beginFetch.logStep.fetchWord.logStep.free := hfree
  rw [runSteps_succ (step_idle hfree hc), runSteps_succ (step_fetchT0 hbegun rfl),
    runSteps_succ (step_fetchT1 hread rfl)]
  rfl

/-- The STEPs of the fetch do not come back to Idle. -/
theorem runSteps_fetch_ctrl (h : s.atInstruction) {k : Nat} (hpos : 0 < k) (hlt : k < 4) :
    ∃ u, runSteps k s = .next u ∧ u.ctrl ≠ .idle := by
  obtain rfl | rfl | rfl : k = 1 ∨ k = 2 ∨ k = 3 := by omega
  · exact ⟨_, (runSteps_one s).trans (step_idle h.1 h.2), Ctrl.noConfusion⟩
  · exact ⟨_, runSteps_two_of_idle h.1 h.2, Ctrl.noConfusion⟩
  · exact ⟨_, (runSteps_afterFetch h 0).trans (runSteps_zero _), Ctrl.noConfusion⟩

end Cycle

/-! ### The obligations of the control unit -/

/-- Settles O55: a STEP acts on both states or on neither, and each row of R551 and each operation acts on both alike. -/
theorem stepIgnoresInertState : Obligations.StepIgnoresInertState := by
  intro s t tr sc inpr outr i e z n auto ms hc h
  obtain ⟨t', ht', halike⟩ := step_withIgnored ⟨tr, sc, inpr, outr, i, e, z, n, auto, ms⟩ hc h
  exact ⟨t', ht', halike.rest, halike.e, halike.z, halike.n⟩

/-- Settles O32: an ignored STEP is only taken off the list; for one that acts, no row of R551 reads or clears `halted`. -/
theorem stepWhileHalted : Obligations.StepWhileHalted := by
  intro s hhalted hc
  have hhalted' : s.takeCommand.halted = true := hhalted
  refine ⟨fun hparam => ?_, fun hparam => ?_⟩
  · have hacts : s.takeCommand.stepActs = false := by simp [State.stepActs, hhalted', hparam]
    exact (step_of_nextCommand_step hc).trans (cmdStep_of_not_stepActs hacts)
  · have hacts : s.takeCommand.stepActs = true := by simp [State.stepActs, hparam]
    have hrunning : (s.setHalted false).nextCommand = .step := hc
    have hsame : (s.setHalted false).takeCommand.setHalted true = s.takeCommand := by
      rw [State.setHalted, ← hhalted']
      rfl
    rw [step_of_nextCommand_step hc, step_of_nextCommand_step hrunning, cmdStep_of_stepActs hacts,
      cmdStep_of_not_halted rfl, ← onNext_logStep_setHalted, ← controlStep_setHalted_true, hsame]

/-- Settles O25, by the rows of `Execute(op)` and of FetchT2. -/
theorem stepRunsTheDecodedInstruction : Obligations.StepRunsTheDecodedInstruction := fun _ h =>
  ⟨fun _ hc hd => step_execute_decoded h hc hd, step_fetchT2_of_no_op h, fun _ hc hd => step_fetchT2_of_op h hc hd⟩

/-- Settles O26, by the rows of Idle and of FetchT0. -/
theorem fetchCopiesPcAndReadsTheWord : Obligations.FetchCopiesPcAndReadsTheWord := fun s h =>
  ⟨fun hc => ⟨_, step_idle h hc⟩, fun hc => ⟨_, _, step_fetchT0 h hc, mask_toNat (s.pc.toNat + 1) 12⟩⟩

/-- Settles O27, by the row of FetchT1 and the operand address as a number. -/
theorem fetchComputesTheOperandAddress : Obligations.FetchComputesTheOperandAddress := fun s h hc =>
  ⟨_, _, step_fetchT1 h hc, toNat_operandAddress s.mem s.ir⟩

/-- Settles O28: three STEPs fetch the word, then FetchT2 performs a fall-through word, or enters `Execute(op)` and the
fifth STEP performs the operation. -/
theorem cycleRunsTheInstructionAtPc : Obligations.CycleRunsTheInstructionAtPc := by
  intro s h w a
  have hfree : s.afterFetch.free := h.1
  have hir : s.afterFetch.ir = w := rfl
  obtain ⟨l, c, hfetched⟩ := s.afterFetch_eq
  rw [operandAddress_eq] at hfetched
  cases hd : opOf (decode w) with
  | none =>
    refine ⟨l, c, ?_, fun k => runSteps_fetch_ctrl h⟩
    rw [runSteps_afterFetch h 1, runSteps_one, step_fetchT2_of_no_op hfree rfl hd, hir, hfetched]
  | some op =>
    have hdecoded : step s.afterFetch = .next (s.afterFetch.setCtrl (.execute op)).logStep :=
      step_fetchT2_of_op hfree rfl hd
    have hready : ∃ l c, (s.afterFetch.setCtrl (.execute op)).logStep =
        { s with ar := a, ir := w, pc := s.pc + 1, ctrl := .execute op, log := l, freeCount := c } := by
      rw [hfetched]
      exact ⟨_, _, rfl⟩
    obtain ⟨l, c, hready⟩ := hready
    have hfree' : (s.afterFetch.setCtrl (.execute op)).logStep.free := h.1
    refine ⟨l, c, ?_, fun k hpos hlt => ?_⟩
    · rw [runSteps_afterFetch h 2, runSteps_succ hdecoded, runSteps_one, step_execute_decoded hfree' rfl hd, hready]
    · obtain hfetch | rfl : k < 4 ∨ k = 4 := by omega
      · exact runSteps_fetch_ctrl h hpos hfetch
      · exact ⟨_, (runSteps_afterFetch h 1).trans ((runSteps_one _).trans hdecoded), Ctrl.noConfusion⟩

end Sys2Proof.Machine

/-! SUPPORT. The memory-reference instructions: the next state of each execute step, and the five STEPs from Idle that
run one, with its effective address and its opcode as numbers of the word fetched. -/

namespace Sys2Proof.Machine

/-! ### Results, words and opcodes -/

/-- A result into AC, with the flags computed from it (R406). -/
theorem State.setAcZN_ofResult (s : State) (v : Word) :
    s.setAcZN (.ofResult v) = { s with ac := v, z := decide (v = 0), n := v.msb } := by
  rw [State.setAcZN, ofResult_z, ofResult_n, ← BitVec.msb_eq_getLsbD_last]
  rfl

/-- The carry as a value of E (R603). -/
theorem ofBool_aluCarry (bits a b : Nat) :
    BitVec.ofBool (aluCarry bits a b) = if 2 ^ bits ≤ a + b then 1 else 0 := by
  rw [aluCarry]
  split_ifs with h
  · rw [decide_eq_true h]
    rfl
  · rw [decide_eq_false h]
    rfl

/-- Every word after a store (R203, R204). -/
theorem State.memRead_memWrite {s : State} (hm : s.mem.wf = true) (a b : Addr) (v : Word) :
    (s.memWrite a v).memRead b = if b = a then v else s.memRead b := by
  simp only [State.memRead, State.memWrite, State.setMem_mem, Memory.read, Memory.write, mask_toNat_self,
    Memory.lookup_put hm, BitVec.toNat_inj]

/-- Every word after a store, as a number (R203, R204). -/
theorem State.toNat_memRead_memWrite {s : State} (hm : s.mem.wf = true) (a b : Addr) (v : Word) :
    ((s.memWrite a v).memRead b).toNat = if b = a then v.toNat else (s.memRead b).toNat :=
  (congrArg BitVec.toNat (State.memRead_memWrite hm a b v)).trans (apply_ite ..)

/-- A word wraps to 0 on an increment just where it is all ones (R608). -/
theorem add_one_eq_zero_iff (w : Word) : w + 1 = 0 ↔ w.toNat = 65535 := by
  bv_omega

/-- A word of opcode 0 to 6, by the number of its opcode field (R304). -/
theorem decode_of_opcode {w : Word} {op : BitVec 3} (h7 : op ≠ 7#3) (h : w.toNat / 4096 % 8 = op.toNat) :
    decode w = decodeMemRef op (indirectOf w) (addressOf w) := by
  have hop : opcodeOf w = op := BitVec.eq_of_toNat_eq ((toNat_opcodeOf w).trans h)
  rw [decode, hop, if_neg h7]

/-! ### The execute steps -/

/-- Settles O11, by the law of the bitwise and. -/
theorem andResult : Obligations.AndResult := by
  refine ⟨fun ind a s => ?_, fun a => ⟨decodeOfEncode (.and false a) rfl, decodeOfEncode (.and true a) rfl⟩⟩
  have hexec : exec (.and ind a) s =
      (s.loadDr.setAcZN (aluAnd 16 s.ac.toNat (s.memRead s.ar).toNat)).finish := rfl
  rw [hexec, aluAnd_eq, State.setAcZN_ofResult]
  rfl

/-- Settles O12, by the laws of the sum and of its carry. -/
theorem addResult : Obligations.AddResult := by
  refine ⟨fun ind a s => ?_, fun a => ⟨decodeOfEncode (.add false a) rfl, decodeOfEncode (.add true a) rfl⟩⟩
  have hexec : exec (.add ind a) s =
      ((s.loadDr.setAcZN (aluAdd 16 s.ac.toNat (s.memRead s.ar).toNat)).setE
        (aluCarry 16 s.ac.toNat (s.memRead s.ar).toNat)).finish := rfl
  rw [hexec, aluAdd_eq, State.setAcZN_ofResult, State.setE, ofBool_aluCarry]
  rfl

/-- Settles O13, by the flags of the word loaded. -/
theorem ldaResult : Obligations.LdaResult := by
  refine ⟨fun ind a s => ?_, fun a => ⟨decodeOfEncode (.lda false a) rfl, decodeOfEncode (.lda true a) rfl⟩⟩
  have hexec : exec (.lda ind a) s = (s.loadDr.setAcZN (.ofResult (s.memRead s.ar))).finish := rfl
  rw [hexec, State.setAcZN_ofResult]
  rfl

/-- Settles O14, by the words after a store. -/
theorem staResult : Obligations.StaResult :=
  ⟨fun _ _ s hwf => ⟨_, rfl, Memory.wf_write hwf .., fun b => State.memRead_memWrite hwf s.ar b s.ac⟩,
    fun a => ⟨decodeOfEncode (.sta false a) rfl, decodeOfEncode (.sta true a) rfl⟩⟩

/-- Settles O15: the model's BUN writes PC and `ctrl` alone. -/
theorem bunResult : Obligations.BunResult :=
  ⟨fun _ _ _ => rfl, fun a => ⟨decodeOfEncode (.bun false a) rfl, decodeOfEncode (.bun true a) rfl⟩⟩

/-- Settles O16, by the words after a store of PC, which zero extension leaves as it is. -/
theorem bsaResult : Obligations.BsaResult := by
  refine ⟨fun ind a s hwf => ⟨_, _, rfl, Memory.wf_write hwf .., mask_toNat (s.ar.toNat + 1) 12, fun b => ?_⟩,
    fun a => ⟨decodeOfEncode (.bsa false a) rfl, decodeOfEncode (.bsa true a) rfl⟩⟩
  have hzext : (s.pc.setWidth 16).toNat = s.pc.toNat := BitVec.toNat_setWidth_of_le (by decide)
  exact hzext ▸ State.toNat_memRead_memWrite hwf s.ar b (s.pc.setWidth 16)

/-- Settles O17, by the words after a store, the incremented word being 0 just where the old one was all ones. -/
theorem iszResult : Obligations.IszResult := by
  refine ⟨fun ind a s hwf => ?_, fun a => ⟨decodeOfEncode (.isz false a) rfl, decodeOfEncode (.isz true a) rfl⟩⟩
  have hexec : exec (.isz ind a) s =
      ((s.memWrite s.ar (s.memRead s.ar + 1)).setPc
        (if s.memRead s.ar + 1 = 0 then mask (s.pc.toNat + 1) 12 else s.pc)).finish := by
    rw [← mask_succ (s.memRead s.ar)]
    rfl
  refine ⟨_, _, hexec, Memory.wf_write hwf .., ?_, fun b => ?_⟩
  · simp only [State.setPc_pc, add_one_eq_zero_iff, apply_ite BitVec.toNat, mask_toNat, Nat.reducePow]
  · refine (State.toNat_memRead_memWrite hwf s.ar b _).trans (ite_congr rfl (fun hb => ?_) fun _ => rfl)
    exact hb ▸ BitVec.toNat_add ..

/-! ### The execute step by the opcode's number -/

/-- Opcodes 0 to 2 load DR and leave their result in AC, with its flags (R602 to R604). -/
theorem exec_of_opcode_le_two {w : Word} {k : Nat} (hk : w.toNat / 4096 % 8 = k) (hhi : k ≤ 2) :
    ∃ op, opOf (decode w) = some op ∧ ∀ s : State, ∃ (v : Word) (e : BitVec 1),
      exec (decode w) s = .next { s with
        dr := s.memRead s.ar, ac := v, e := e, z := decide (v = 0), n := v.msb, ctrl := .idle } ∧
      v.toNat = (if k = 0 then s.ac.toNat &&& (s.memRead s.ar).toNat
        else if k = 1 then (s.ac.toNat + (s.memRead s.ar).toNat) % 65536 else (s.memRead s.ar).toNat) ∧
      e = if k = 1 then (if 65536 ≤ s.ac.toNat + (s.memRead s.ar).toNat then 1 else 0) else s.e := by
  obtain rfl | rfl | rfl : k = 0 ∨ k = 1 ∨ k = 2 := by omega
  · rw [decode_of_opcode (op := 0#3) (by decide) hk]
    exact ⟨.and, rfl, fun s => ⟨_, _, andResult.1 _ _ s, BitVec.toNat_and .., rfl⟩⟩
  · rw [decode_of_opcode (op := 1#3) (by decide) hk]
    exact ⟨.add, rfl, fun s => ⟨_, _, addResult.1 _ _ s, BitVec.toNat_add .., rfl⟩⟩
  · rw [decode_of_opcode (op := 2#3) (by decide) hk]
    exact ⟨.lda, rfl, fun s => ⟨_, _, ldaResult.1 _ _ s, rfl, rfl⟩⟩

/-- Opcodes 3 to 6 write the word at AR and PC, and nothing else but `ctrl` (R605 to R608). -/
theorem exec_of_opcode_three_to_six {w : Word} {k : Nat} (hk : w.toNat / 4096 % 8 = k) (hlo : 3 ≤ k) (hhi : k ≤ 6) :
    ∃ op, opOf (decode w) = some op ∧ ∀ s : State, s.mem.wf = true → ∃ (m : Memory) (p : Addr),
      exec (decode w) s = .next { s with mem := m, pc := p, ctrl := .idle } ∧
      p.toNat = (if k = 3 then s.pc.toNat else if k = 4 then s.ar.toNat else if k = 5 then (s.ar.toNat + 1) % 4096
        else if (s.memRead s.ar).toNat = 65535 then (s.pc.toNat + 1) % 4096 else s.pc.toNat) ∧
      ∀ b : Addr, (m.read b.toNat).toNat =
        if b = s.ar then (if k = 3 then s.ac.toNat else if k = 4 then (s.memRead s.ar).toNat
          else if k = 5 then s.pc.toNat else ((s.memRead s.ar).toNat + 1) % 65536)
        else (s.memRead b).toNat := by
  obtain rfl | rfl | rfl | rfl : k = 3 ∨ k = 4 ∨ k = 5 ∨ k = 6 := by omega
  · rw [decode_of_opcode (op := 3#3) (by decide) hk]
    refine ⟨.sta, rfl, fun s hwf => ?_⟩
    obtain ⟨m, hexec, -, hread⟩ := staResult.1 (indirectOf w) (addressOf w) s hwf
    exact ⟨m, s.pc, hexec, rfl, fun b => (congrArg BitVec.toNat (hread b)).trans (apply_ite ..)⟩
  · rw [decode_of_opcode (op := 4#3) (by decide) hk]
    exact ⟨.bun, rfl, fun s _ => ⟨s.mem, s.ar, bunResult.1 _ _ s, rfl,
      fun b => (ite_eq_right_iff.2 fun hb => hb ▸ rfl).symm⟩⟩
  · rw [decode_of_opcode (op := 5#3) (by decide) hk]
    refine ⟨.bsa, rfl, fun s hwf => ?_⟩
    obtain ⟨m, p, hexec, -, hp, hread⟩ := bsaResult.1 (indirectOf w) (addressOf w) s hwf
    exact ⟨m, p, hexec, hp, hread⟩
  · rw [decode_of_opcode (op := 6#3) (by decide) hk]
    refine ⟨.isz, rfl, fun s hwf => ?_⟩
    obtain ⟨m, p, hexec, -, hp, hread⟩ := iszResult.1 (indirectOf w) (addressOf w) s hwf
    exact ⟨m, p, hexec, hp, fun b => (hread b).trans (ite_congr rfl (fun hb => hb ▸ rfl) fun _ => rfl)⟩

/-! ### The run from Idle -/

/-- Where four STEPs from Idle leave the machine for a word of the operation op: about to perform it (R553 to R556). -/
def State.atExecute (s : State) (op : Op) : State := (s.afterFetch.setCtrl (.execute op)).logStep

/-- From Idle five STEPs perform the instruction at PC, in the state that its fetch leaves (R558, R563). -/
theorem runSteps_five_of_op {s : State} {op : Op} (h : s.atInstruction)
    (hd : opOf (decode (s.memRead s.pc)) = some op) :
    runSteps 5 s = onNext State.logStep (exec (decode (s.memRead s.pc)) (s.atExecute op)) := by
  have hfetched : s.afterFetch.free := h.1
  have hready : (s.atExecute op).free := h.1
  have hdecoded : step s.afterFetch = .next (s.atExecute op) := step_fetchT2_of_op hfetched rfl hd
  rw [runSteps_afterFetch h 2, runSteps_succ hdecoded, runSteps_one, step_execute_decoded hready rfl hd]
  rfl

/-- The operand address in AR, as a number of the word at PC (R555, R609). -/
theorem State.toNat_atExecute_ar (s : State) (op : Op) : (s.atExecute op).ar.toNat =
    if 32768 ≤ (s.memRead s.pc).toNat then (s.mem.read ((s.memRead s.pc).toNat % 4096)).toNat % 4096
    else (s.memRead s.pc).toNat % 4096 :=
  toNat_operandAddress s.mem (s.memRead s.pc)

/-- PC is the address of the next word (R554). -/
theorem State.toNat_atExecute_pc (s : State) (op : Op) : (s.atExecute op).pc.toNat = (s.pc.toNat + 1) % 4096 :=
  mask_toNat (s.pc.toNat + 1) 12

/-- The fetch does not write memory, so a read at AR is the read at the effective address before it (R553 to R556). -/
theorem State.atExecute_memRead (s : State) (op : Op) (a : Addr) :
    (s.atExecute op).memRead a = s.mem.read a.toNat := rfl

/-- Settles O29: the execute step by the opcode's number, in the state that the fetch leaves. -/
theorem andAddLdaRunFromIdle : Obligations.AndAddLdaRunFromIdle := by
  intro s h w ea m hop
  obtain ⟨op, hd, hexec⟩ := exec_of_opcode_le_two rfl hop
  obtain ⟨v, e, hexec, hv, he⟩ := hexec (s.atExecute op)
  have hea : (s.atExecute op).ar.toNat = ea := s.toNat_atExecute_ar op
  rw [State.atExecute_memRead, hea] at hv he
  refine ⟨_, (runSteps_five_of_op h hd).trans (congrArg _ hexec), rfl, hea, rfl, s.toNat_atExecute_pc op,
    congrArg (fun a => (s.mem.read a).toNat) hea, rfl, h.1.2, hv, ?_, ?_, he⟩
  · exact decide_eq_true_iff.trans BitVec.toNat_eq
  · exact (BitVec.msb_eq_decide v).symm ▸ decide_eq_true_iff

/-- Settles O30: the execute step by the opcode's number, in the state that the fetch leaves. -/
theorem staBunBsaIszRunFromIdle : Obligations.StaBunBsaIszRunFromIdle := by
  intro s h hwf w opcode ea next m hlo hhi
  obtain ⟨op, hd, hexec⟩ := exec_of_opcode_three_to_six rfl hlo hhi
  obtain ⟨m', p, hexec, hp, hread⟩ := hexec (s.atExecute op) hwf
  have hea : (s.atExecute op).ar.toNat = ea := s.toNat_atExecute_ar op
  simp only [State.atExecute_memRead, BitVec.toNat_eq, hea, s.toNat_atExecute_pc op] at hp hread
  refine ⟨_, (runSteps_five_of_op h hd).trans (congrArg _ hexec), rfl, hea, rfl, rfl, rfl, rfl, rfl, rfl, h.1.2, hp,
    fun b hb => ?_⟩
  obtain ⟨a, rfl⟩ : ∃ a : Addr, a.toNat = b := ⟨.ofNat 12 b, Nat.mod_eq_of_lt hb⟩
  exact hread a

end Sys2Proof.Machine

/-! SUPPORT. The register-reference instructions: the next state of each, and the run from Idle of an opcode-7 word,
with its effect by the word's address field. -/

namespace Sys2Proof.Machine

/-! ### The execute steps -/

/-- Settles O18: the model's CLA writes AC and `ctrl` alone. -/
theorem claResult : Obligations.ClaResult :=
  ⟨fun _ _ => rfl, decodeOfEncode (.cla false) rfl, decodeOfEncode (.cla true) rfl⟩

/-- Settles O19: the model's CLE writes E and `ctrl` alone. -/
theorem cleResult : Obligations.CleResult := ⟨fun _ _ => rfl, decodeOfEncode (.cle false) rfl⟩

/-- Settles O20, by the law of the complement, whose flags are discarded. -/
theorem cmaResult : Obligations.CmaResult := by
  refine ⟨fun ind s => ⟨~~~s.ac, ?_, BitVec.toNat_not⟩, decodeOfEncode (.cma false) rfl,
    decodeOfEncode (.cma true) rfl⟩
  have hexec : exec (.cma ind) s = (s.setAc (aluComplement 16 s.ac.toNat).result).finish := rfl
  rw [hexec, aluComplement_eq]
  rfl

/-- Settles O21, by the law of the increment and the flags of its result. -/
theorem incResult : Obligations.IncResult := by
  refine ⟨fun ind s => ⟨s.ac + 1, ?_, BitVec.toNat_add ..⟩, decodeOfEncode (.inc false) rfl⟩
  have hexec : exec (.inc ind) s = (s.setAcZN (aluIncrement 16 s.ac.toNat)).finish := rfl
  rw [hexec, aluIncrement_eq, State.setAcZN_ofResult]
  rfl

/-- Settles O22: the model's HLT writes `halted` and `ctrl` alone. -/
theorem hltResult : Obligations.HltResult := ⟨fun _ _ => rfl, decodeOfEncode (.hlt false) rfl⟩

/-- Settles O23: a pattern that selects no operation makes a well-formed fall-through, which its word decodes to. -/
theorem fallThroughResult : Obligations.FallThroughResult := by
  refine ⟨fun _ _ _ => rfl, fun p hp => ?_⟩
  have hwf (ind : Bool) : (Instr.fallThrough ind p).wf = true :=
    (Instr.wf_fallThrough_iff ind p).2 (by simpa using hp)
  exact ⟨decodeOfEncode (.fallThrough false p) (hwf false), decodeOfEncode (.fallThrough true p) (hwf true)⟩

/-! ### Opcode 7 by the address field -/

/-- A word of opcode 7, by its other two fields (R305, R306). -/
theorem decode_of_opcode_seven {w : Word} (h : w.toNat / 4096 % 8 = 7) :
    decode w = decodeRegRef (indirectOf w) (addressOf w) := by
  have hop : opcodeOf w = 7#3 := BitVec.eq_of_toNat_eq ((toNat_opcodeOf w).trans h)
  rw [decode, if_pos hop]

theorem isRegRefPattern_iff (p : Addr) : isRegRefPattern p = true ↔
    p = 0x800#12 ∨ p = 0x400#12 ∨ p = 0x200#12 ∨ p = 0x100#12 ∨ p = 0x001#12 := by
  simp only [isRegRefPattern, Bool.or_eq_true, beq_iff_eq, or_assoc]

/-- Any other pattern falls through (R306). -/
theorem decodeRegRef_of_not_pattern (ind : Bool) {p : Addr} (h : isRegRefPattern p = false) :
    decodeRegRef ind p = .fallThrough ind p :=
  decodeRegRef_of_wf (congrArg not h)

/-- Just the five patterns select an operation (R305, R306, R308). -/
theorem isSome_opOf_decodeRegRef (ind : Bool) (p : Addr) :
    (opOf (decodeRegRef ind p)).isSome = isRegRefPattern p := by
  cases hp : isRegRefPattern p with
  | true => obtain rfl | rfl | rfl | rfl | rfl := (isRegRefPattern_iff p).1 hp <;> rfl
  | false => rw [decodeRegRef_of_not_pattern ind hp]; rfl

/-- An opcode-7 word acts on AC, E, Z, N and `halted` alone, by its address field (R652 to R657). -/
theorem exec_decodeRegRef (ind : Bool) (p : Addr) (s : State) : ∃ v : Word,
    exec (decodeRegRef ind p) s = .next { s with
      ac := v, e := if p = 0x400#12 then 0 else s.e
      z := if p = 0x100#12 then decide (v = 0) else s.z, n := if p = 0x100#12 then v.msb else s.n
      halted := decide (p = 0x001#12) || s.halted, ctrl := .idle } ∧
    v.toNat = if p = 0x800#12 then 0 else if p = 0x200#12 then 65535 - s.ac.toNat
      else if p = 0x100#12 then (s.ac.toNat + 1) % 65536 else s.ac.toNat := by
  cases hp : isRegRefPattern p with
  | true =>
    obtain rfl | rfl | rfl | rfl | rfl := (isRegRefPattern_iff p).1 hp
    · exact ⟨0, claResult.1 ind s, rfl⟩
    · exact ⟨s.ac, cleResult.1 ind s, rfl⟩
    · exact cmaResult.1 ind s
    · exact incResult.1 ind s
    · exact ⟨s.ac, hltResult.1 ind s, rfl⟩
  | false =>
    obtain ⟨hcla, hcle, hcma, hinc, hhlt⟩ := (Instr.wf_fallThrough_iff ind p).1 (congrArg not hp)
    simp only [decodeRegRef_of_not_pattern ind hp, if_neg hcla, if_neg hcle, if_neg hcma, if_neg hinc,
      decide_eq_false hhlt, Bool.false_or]
    exact ⟨s.ac, fallThroughResult.1 ind p s, rfl⟩

/-- A 12-bit pattern in the address field, as a number of the word (R301). -/
theorem addressOf_eq_iff (w : Word) (p : Addr) : addressOf w = p ↔ w.toNat % 4096 = p.toNat := by
  rw [BitVec.toNat_eq, toNat_addressOf]

/-! ### The run from Idle -/

/-- From Idle the instruction at PC is performed after its fetch: by the fifth STEP, or by the fourth where its word
selects no operation (R558, R563, R657). -/
theorem runSteps_of_atInstruction {s : State} (h : s.atInstruction) :
    ∃ (a : Addr) (x : Ctrl) (l : List String) (c : Nat),
      runSteps (if (opOf (decode (s.memRead s.pc))).isSome then 5 else 4) s =
        onNext State.logStep (exec (decode (s.memRead s.pc))
          { s with ar := a, ir := s.memRead s.pc, pc := s.pc + 1, ctrl := x, log := l, freeCount := c }) := by
  obtain ⟨l, c, hrun⟩ := cycleRunsTheInstructionAtPc s h
  cases hd : opOf (decode (s.memRead s.pc)) with simp only [hd] at hrun
  | some op => exact ⟨_, .execute op, l, c, hrun.1⟩
  | none => exact ⟨_, .fetchT2, l, c, hrun.1⟩

/-- Settles O31: the effect of the address field, in the state that the fetch leaves. -/
theorem registerReferenceRunFromIdle : Obligations.RegisterReferenceRunFromIdle := by
  intro s h w a listed h7
  have hlisted : isRegRefPattern (addressOf (s.memRead s.pc)) = true ↔ listed := by
    simp only [isRegRefPattern_iff, addressOf_eq_iff]
    rfl
  obtain ⟨ar, x, l, c, hrun⟩ := runSteps_of_atInstruction h
  simp only [decode_of_opcode_seven h7, isSome_opOf_decodeRegRef, hlisted] at hrun
  obtain ⟨v, hexec, hv⟩ := exec_decodeRegRef (indirectOf (s.memRead s.pc)) (addressOf (s.memRead s.pc))
    { s with ar := ar, ir := s.memRead s.pc, pc := s.pc + 1, ctrl := x, log := l, freeCount := c }
  simp only [addressOf_eq_iff] at hexec hv
  refine ⟨_, hrun.trans (congrArg _ hexec), rfl, rfl, BitVec.toNat_add .., rfl, rfl, hv, rfl, rfl, rfl, ?_⟩
  rw [State.logStep_halted, h.1.2, Bool.or_false]
  exact decide_eq_true_iff

end Sys2Proof.Machine

/-! SUPPORT. The host's commands: what a program's image reads at each address, and that a step answers next exactly for
the commands that the block defines. -/

namespace Sys2Proof.Machine

/-! ### The image of a program -/

section Image
variable {m : Memory} {p : Program} {k v : Nat}

/-- A word address after one entry of an image: the entry's value masked to 16 bits at its own key, any other word as
before; an entry from 4096 on is at no word address (R311). -/
theorem Memory.toNat_read_loadEntry (hm : m.wf = true) (entry : Nat × Nat) (hk : k < 4096) :
    ((m.loadEntry entry).read k).toNat = if k = entry.1 then entry.2 % 65536 else (m.read k).toNat := by
  unfold Memory.loadEntry
  split
  next hin => rw [Memory.toNat_read_write hm, Nat.mod_eq_of_lt hk, Nat.mod_eq_of_lt hin]
  next hout => rw [if_neg (by omega)]

theorem Memory.loadImage_concat (m : Memory) (p : Program) (entry : Nat × Nat) :
    m.loadImage (p ++ [entry]) = (m.loadImage p).loadEntry entry := List.foldl_concat ..

/-- An address that a program does not list reads 0 in its image (R704). -/
theorem Memory.read_loadImage_of_forall_notMem (hk : k < 4096) (h : ∀ v, (k, v) ∉ p) : (m.loadImage p).read k = 0 := by
  induction p using List.reverseRecOn with
  | nil => exact Memory.read_nil k
  | append_singleton p entry ih =>
    have hne : k ≠ entry.1 := by rintro rfl; exact h entry.2 (by simp)
    apply BitVec.eq_of_toNat_eq
    rw [Memory.loadImage_concat, Memory.toNat_read_loadEntry (Memory.wf_loadImage ..) entry hk, if_neg hne,
      ih fun v hv => h v (List.mem_append_left _ hv)]

/-- An entry of a map reads back masked in its image: no later entry has its key (R311, R704). -/
theorem Memory.toNat_read_loadImage_of_mem (hk : k < 4096) (hp : (p.map Prod.fst).Nodup) (h : (k, v) ∈ p) :
    ((m.loadImage p).read k).toNat = v % 65536 := by
  induction p using List.reverseRecOn with
  | nil => cases h
  | append_singleton p entry ih =>
    rw [Memory.loadImage_concat, Memory.toNat_read_loadEntry (Memory.wf_loadImage ..) entry hk]
    rw [List.map_append, List.map_singleton, List.nodup_append_comm, List.singleton_append, List.nodup_cons] at hp
    obtain ⟨hfresh, hp⟩ := hp
    obtain hold | hlast := List.mem_append.1 h
    · have hne : k ≠ entry.1 := by rintro rfl; exact hfresh (List.mem_map.2 ⟨_, hold, rfl⟩)
      rw [if_neg hne, ih hp hold]
    · cases List.mem_singleton.1 hlast
      exact if_pos rfl

end Image

/-! ### Which commands complete -/

theorem exec_completes (i : Instr) (s : State) : ∃ t, exec i s = .next t := by cases i <;> exact ⟨_, rfl⟩

/-- Every row of R551 completes (R801). -/
theorem controlStep_completes (s : State) : ∃ t, controlStep s = .next t := by
  unfold controlStep
  cases s.ctrl with
  | fetchT2 => obtain ⟨op, -, h⟩ | ⟨-, h⟩ := dispatch_cases s <;> exact ⟨_, h⟩
  | execute op => exact exec_completes ..
  | _ => exact ⟨_, rfl⟩

theorem cmdStep_completes (s : State) : ∃ t, cmdStep s = .next t := by
  cases ha : s.stepActs with
  | true =>
    obtain ⟨u, hu⟩ := controlStep_completes s
    exact ⟨u.logStep, by rw [cmdStep_of_stepActs ha, hu, onNext_next]⟩
  | false => exact ⟨s, cmdStep_of_not_stepActs ha⟩

theorem applyCommand_completes {c : Command} (hc : c.defined = true) (s : State) : ∃ t, applyCommand c s = .next t := by
  cases c with
  | step => exact cmdStep_completes s
  | regTool r c => exact ⟨_, if_pos hc⟩
  | busTool c =>
    cases c with
    | drive source v => exact ⟨_, if_pos hc⟩
    | release => exact ⟨_, rfl⟩
  | _ => exact ⟨_, rfl⟩

/-- Only a tool's command can be undefined: one that its register tool lacks, or a DRIVE by no bus source (R465, R502). -/
theorem applyCommand_refused {c : Command} (hc : c.defined ≠ true) (s : State) : ∃ r, applyCommand c s = .refused r := by
  cases c with
  | regTool r c => exact ⟨_, if_neg hc⟩
  | busTool c =>
    cases c with
    | drive source v => exact ⟨_, if_neg hc⟩
    | release => exact absurd rfl hc
  | _ => exact absurd rfl hc

/-! ### The obligations of the host's commands -/

/-- Settles O36: the image is canonical, and its reads are its entries'. -/
theorem loadProgramInstallsTheImage : Obligations.LoadProgramInstallsTheImage := fun s p _ h hp =>
  ⟨s.mem.loadImage p, _, step_of_cons h, Memory.wf_loadImage ..,
    fun _ _ hmem hk => Memory.toNat_read_loadImage_of_mem hk hp hmem,
    fun _ hk habsent => Memory.read_loadImage_of_forall_notMem hk habsent⟩

/-- Settles O50: a step applies the next command, which completes or is refused as it is defined or not. -/
theorem definedCommandsComplete : Obligations.DefinedCommandsComplete := by
  intro s
  split
  next hc => exact applyCommand_completes hc _
  next hc => exact applyCommand_refused hc _

/-- Settles O24, by whether a command waits. -/
theorem stepAppliesTheOldestCommand : Obligations.StepAppliesTheOldestCommand :=
  ⟨fun _ _ _ => step_of_cons, fun _ => step_of_empty⟩

/-- Settles O34: the step is `cmdHalt` on the state without the command. -/
theorem haltCommandAbandonsTheInstruction : Obligations.HaltCommandAbandonsTheInstruction := fun _ _ h =>
  ⟨_, step_of_cons h⟩

/-- Settles O35: the step is `cmdResume` on the state without the command. -/
theorem resumeCommandClearsHalted : Obligations.ResumeCommandClearsHalted := fun _ _ h => ⟨_, step_of_cons h⟩

/-- Settles O37: the step is `cmdSetAutoRun` or `cmdSetSpeed` on the state without the command. -/
theorem hostConfigurationCommands : Obligations.HostConfigurationCommands :=
  ⟨fun _ _ _ h => ⟨_, step_of_cons h⟩, fun _ _ _ h => ⟨_, step_of_cons h⟩⟩

end Sys2Proof.Machine

/-! SUPPORT. How a STEP halts the machine: by HLT alone. -/

namespace Sys2Proof.Machine

section Halting
variable {s t u : State}

/-- HLT sets `halted`, and no other operation writes it (R656). -/
theorem exec_instrOf_halted {op : Op} {ir : Word} (h : exec (instrOf op ir) s = .next u) :
    u.halted = s.halted ∨ (op = .hlt ∧ u = (s.setHalted true).setCtrl .idle) := by
  cases op with
  | hlt => cases h; exact .inr ⟨rfl, rfl⟩
  | _ => cases h; exact .inl rfl

/-- Of the rows of R551 only `Execute(HLT)` writes `halted` (R656). -/
theorem ControlEffect.halted (h : ControlEffect s u) :
    u.halted = s.halted ∨ (s.ctrl = .execute .hlt ∧ u = (s.setHalted true).setCtrl .idle) := by
  cases h with
  | executed op hc hx => simpa [hc] using exec_instrOf_halted hx
  | _ => exact .inl rfl

/-- A STEP that turns `halted` to true is the one from `Execute(HLT)`. -/
theorem step_halts (hc : s.nextCommand = .step) (h : step s = .next t) (hs : s.halted = false) (ht : t.halted = true) :
    s.ctrl = .execute .hlt ∧ t = ((s.takeCommand.setHalted true).setCtrl .idle).logStep := by
  have hchanged : t.halted ≠ s.halted := by simp [hs, ht]
  rw [step_of_nextCommand_step hc] at h
  obtain ⟨-, u, hu, rfl⟩ | ⟨-, rfl⟩ := cmdStep_cases h
  · obtain hkept | ⟨hctrl, rfl⟩ := (controlEffect_of_controlStep hu).halted
    · exact absurd hkept hchanged
    · exact ⟨hctrl, rfl⟩
  · exact absurd rfl hchanged

end Halting

/-- The invariant's agreement of position and IR, at `Execute(HLT)`: IR is a HLT word (R308, R813). -/
theorem State.PositionMatchesIr.irIsHlt {s : State} (h : s.PositionMatchesIr) (hc : s.ctrl = .execute .hlt) : s.irIsHlt :=
  ⟨_, (instrOf_decode (h .hlt hc)).symm⟩

/-- Settles O56: the STEP is the one from `Execute(HLT)`, which leads to Idle and leaves IR as the invariant has it. -/
theorem haltedByAStepMeansHlt : Obligations.HaltedByAStepMeansHlt := by
  intro s t hi hc h hs ht
  obtain ⟨hctrl, rfl⟩ := step_halts hc h hs ht
  exact ⟨⟨rfl, rfl⟩, hi.position.irIsHlt hctrl⟩

end Sys2Proof.Machine

/-! SUPPORT. The registers after RESET against those of the creation state. -/

namespace Sys2Proof.Machine

/-- What RESET writes is the creation state's value (R902, R903); the fields listed are those it leaves (R902, R904, D10). -/
theorem State.clearRegisters_eq_reset (s : State) :
    s.clearRegisters =
      { State.reset with
        mem := s.mem, log := s.log, autoRun := s.autoRun, speedMs := s.speedMs, tools := s.tools, inbox := s.inbox
        freeCount := s.freeCount } := rfl

/-- Settles O38: the step is `cmdReset` on the state without the command, and what that clears has its creation value. -/
theorem resetCommandRestoresCreation : Obligations.ResetCommandRestoresCreation := by
  intro s rest h
  have hstep : step s = .next (cmdReset { s with inbox := rest }) := step_of_cons h
  rw [cmdReset, State.clearRegisters_eq_reset] at hstep
  exact ⟨_, hstep⟩

end Sys2Proof.Machine
